-- ==== Sys2Proof/Word.lean ====
section
/-! DEFINITION. The small types every other file uses: bytes of the host port, station and channel numbers, slices,
and the two fixed-size tables (one place per channel, one place per station number). -/

namespace Sys2Proof

/-- One byte of a host frame (R176). -/
abbrev Byte := BitVec 8

/-- The cycle sequence, 0..255, which wraps at the mark that follows 255 (R138, R143). -/
abbrev Sequence := BitVec 8

/-- A station number 0..15. -/
abbrev StationNo := Fin 16

/-- A load channel 0..3. -/
abbrev ChannelNo := Fin 4

/-- A slice of the cycle, 0..63. -/
abbrev Slice := Fin 64

/-- One value for each load channel. -/
abbrev PerChannel (α : Type) := Vector α 4

/-- One value for each station number. -/
abbrev PerStation (α : Type) := Vector α 16

/-- A set of station numbers 0..15: the ack set of a report (R27), a witness set (R60), the live set (R101). -/
abbrev StationSet := PerStation Bool

/-- Channel order: 0, 1, 2, 3. -/
def channelOrder : List ChannelNo := [0, 1, 2, 3]

/-- The station numbers, ascending. -/
def stationOrder : List StationNo := [0, 1, 2, 3, 4, 5, 6, 7, 8, 9, 10, 11, 12, 13, 14, 15]

end Sys2Proof
end

