-- ==== Sys2Proof/Syntax.lean ====
section
/-! DEFINITION. The commands the block takes: one constructor per row of spec/opcode_table.json, in the table's order.
A command that ends a host frame carries what its frame clocked in: its parameters, then the bits beyond the bytes it
needs, which are ignored, a byte left incomplete among them (R176, R178). The beginning of a frame carries the edges of
HSCK that follow, each with its own time (log 7). An edge of the span line, or of HCS falling, carries the time since the
event before it, in CLK cycles. An echo mismatch and an arrival carry what the line's edges have made of them, and are
taken only where they have. The other rows carry nothing: what they do follows from the state. -/

namespace Sys2Proof

/-- An edge of HSCK to come (R176): it takes HSCK to its other level `after` CLK cycles after the edge before it, or after
the command that gives it where none is to come before it, with HSDI at the level `hsdi`. -/
structure HsckEdge where
  after : Nat
  hsdi  : Bool
  deriving DecidableEq, Repr

/-- A command or event of the LS416. -/
inductive Instr where
  /-- FRAME_BEGIN (R176): HCS falls, `after` CLK cycles after the event before it, or, where no time is given, once it has
  been high for 2 µs; `clock` are edges of HSCK that follow those still to come. -/
  | frameBegin (after : Option Nat := none) (clock : List HsckEdge := [])
  /-- SHORT_FRAME (R178): HCS rises; `bits` are all the bits of the frame. -/
  | shortFrame (bits : List Bool)
  /-- UNKNOWN (R178): HCS rises; `command` is the command byte, `rest` the bits after it. -/
  | unknown (command : Byte) (rest : List Bool)
  /-- FETCH (R181). -/
  | fetch (extra : List Bool)
  /-- CONFIGURE (R184) with the 15-byte configuration record of R193. -/
  | configure (record : Vector Byte 15) (extra : List Bool)
  /-- JOIN (R107). -/
  | join (extra : List Bool)
  /-- DEPART (R115, R117). -/
  | depart (extra : List Bool)
  /-- RESTART (R123). -/
  | restart (extra : List Bool)
  /-- DEMAND (R157): both parameters are bytes 0..255. -/
  | demand (channel length : Byte) (extra : List Bool)
  /-- RENEW (R161). -/
  | renew (extra : List Bool)
  /-- STATUS (R187). -/
  | status (extra : List Bool)
  /-- READ ROSTER (R188). -/
  | readRoster (extra : List Bool)
  /-- READ SPANS (R24). -/
  | readSpans (index count : Byte) (extra : List Bool)
  /-- TAKE NOTICES (R171). -/
  | takeNotices (count : Byte) (extra : List Bool)
  /-- FULL_RESET (R124): power-on, or RESET goes low and is held. -/
  | fullReset
  /-- RESET_RELEASE (R189). -/
  | resetRelease
  /-- FOUNDING (R109). -/
  | founding
  /-- CYCLE_TIMER_EXPIRY (R142). -/
  | cycleTimerExpiry
  /-- DEFERRED_MARK_DRIVE (R142). -/
  | deferredMarkDrive
  /-- MARK (R143). -/
  | mark
  /-- WAIT_EXPIRY (R75): the mark at which a BACKOFF channel's wait runs out. -/
  | waitExpiry
  /-- JOINED (R111): the (E + 1)th mark in LISTENING. -/
  | joined
  /-- LEASE_LAPSED (R160): the mark that brings the lease count to L. -/
  | leaseLapsed
  /-- SLICE_BOUNDARY (R126). -/
  | sliceBoundary
  /-- OWN_SLOT_START (R30). -/
  | ownSlotStart
  /-- TRANSMIT_START (R146). -/
  | transmitStart
  /-- ECHO_MISMATCH (R148): `bit` counts the bits of the report on the line from its start bit, 0. -/
  | echoMismatch (bit : Nat)
  /-- TRANSMIT_END (R146). -/
  | transmitEnd
  /-- OWN_SLOT_END (R149). -/
  | ownSlotEnd
  /-- SILENCED (R112): the own-slot-end that silences a MEMBER. -/
  | silenced
  /-- DEPARTING_ECHO_CLEAR (R118): the own-slot-end that clears a DEPARTING station early. -/
  | departingEchoClear
  /-- RESTORED (R113): the own-slot-end that restores a SILENCED station. -/
  | restored
  /-- REPORT_ARRIVAL (R43): `bits` are the levels read after the start bit, spacers included, to the last check bit,
  `true` for high. -/
  | reportArrival (bits : List Bool)
  /-- SETTLE_POINT (R145). -/
  | settlePoint
  /-- PEER_LOST (R99): a settle point at which a LIVE row expires. -/
  | peerLost
  /-- DEPARTED (R116): the settle point that completes a departure. -/
  | departed
  /-- LINE_FAULT (R120). -/
  | lineFault
  /-- LINE_CLEAR (R121). -/
  | lineClear
  /-- DEFERRED_FRAME_BEGIN (R176): HCS fell early, and the 2 µs have run; `clock` as for FRAME_BEGIN. -/
  | deferredFrameBegin (clock : List HsckEdge := [])
  /-- LINE_RISING_EDGE (R141), `after` CLK cycles after the event before it. -/
  | lineRisingEdge (after : Nat)
  /-- LINE_FALLING_EDGE (R147), `after` CLK cycles after the event before it. -/
  | lineFallingEdge (after : Nat)
  deriving DecidableEq, Repr

end Sys2Proof
end

