-- ==== Sys2Proof/Machine/State.lean ====
section
/-! DEFINITION. The state of the LS416, block by block as the manual's block diagram names them, and the state right
after a full reset. All of it is plain data. Durations count CLK cycles of the 16 MHz clock (62.5 ns), the unit in which
a bit time (128), every slice length and the port's 2 µs (32) are whole numbers. -/

namespace Sys2Proof.Machine

/-! ### Spans and the span map (SM) -/

/-- A span: `length` slices from `start`, taken modulo 64 (R5). A length lies in 1..64. -/
structure Span where
  start  : Slice
  length : Nat
  deriving DecidableEq, Repr

/-- The kind of a map entry. Only a RESERVED entry has an age, 0..255 (R1). -/
inductive EntryKind where
  | standing
  | reserved (age : Nat)
  deriving DecidableEq, Repr

/-- An entry of the span map (R1). -/
structure Entry where
  owner   : StationNo
  channel : ChannelNo
  kind    : EntryKind
  span    : Span
  weight  : Nat
  overlap : Bool
  deriving DecidableEq, Repr

/-! ### Configuration -/

/-- The configured values of one channel (R183). -/
structure ChannelConfig where
  enabled : Bool
  weight  : Nat
  floor   : Nat
  deriving DecidableEq, Repr

/-- The configuration record in field form (R183, R193): an E sent as 0 is held as 4. -/
structure Configuration where
  station   : StationNo
  sliceCode : Fin 4
  budget    : Nat
  expiry    : Nat
  lease     : Nat
  threshold : Nat
  channels  : PerChannel ChannelConfig
  deriving DecidableEq, Repr

/-! ### Claim Engine (CE) -/

/-- Where a channel stands in the claim handshake (R49). -/
inductive ChannelState where
  | idle | seeking | blocked | claimed | held | backoff
  deriving DecidableEq, Repr

/-- The Claim Engine's record of one channel (R47). `claimed` is the outstanding claim flag. -/
structure ChannelRecord where
  state   : ChannelState
  demand  : Nat
  held    : Option Span
  deficit : Nat
  streak  : Nat
  wait    : Nat
  claimed : Bool
  deriving DecidableEq, Repr

/-- The echo of a claim report (R59). -/
inductive EchoResult where
  | pending | success | failure
  deriving DecidableEq, Repr

/-- The stage of the outstanding-claim record (R59). -/
inductive ClaimStage where
  | sent | due
  deriving DecidableEq, Repr

/-- The outstanding-claim record (R59): its claims in channel order. -/
structure ClaimRecord where
  claims    : List (ChannelNo × Span)
  witnesses : StationSet
  echo      : EchoResult
  stage     : ClaimStage
  deriving DecidableEq, Repr

/-! ### Roster (RO) -/

/-- The status of a roster row (R96). -/
inductive RowStatus where
  | absent | live | departing
  deriving DecidableEq, Repr

/-- A roster row (R96). -/
structure Row where
  status   : RowStatus
  silence  : Nat
  heard    : Bool
  accept   : Bool
  ackForMe : Bool
  sentAck  : Bool
  deriving DecidableEq, Repr

/-- The row of a station that is unknown: ABSENT, silence 0, every flag clear (R96). -/
def Row.empty : Row :=
  { status := .absent, silence := 0, heard := false, accept := false, ackForMe := false, sentAck := false }

/-! ### Membership Controller (MC) -/

/-- The station state (R104). -/
inductive StationState where
  | dormant | ready | listening | member | departing | silenced | lineFault
  deriving DecidableEq, Repr

/-- The Membership Controller's record (R104). Its `configured` field is not held twice: it is yes exactly when the
state holds a configuration (State.configured). -/
structure Membership where
  state          : StationState
  listenCount    : Nat
  founding       : Bool
  numberInUse    : Bool
  newMember      : Bool
  departureCount : Nat
  restoreCount   : Nat
  deriving DecidableEq, Repr

/-! ### Reports (RC) -/

/-- The kind of a report item (R28). -/
inductive ItemKind where
  | standing | claim
  deriving DecidableEq, Repr

/-- An item of a report (R28). -/
structure Item where
  kind    : ItemKind
  channel : ChannelNo
  span    : Span
  weight  : Nat
  deriving DecidableEq, Repr

/-- The fields of a report from the sender through the last item (R27). The item count is the items' number and the
check is computed from the fields (R191). -/
structure Report where
  sender    : StationNo
  sequence  : Sequence
  newMember : Bool
  departing : Bool
  ackSet    : StationSet
  items     : List Item
  deriving DecidableEq, Repr

/-! ### Line Interface (LI) -/

/-- The sampling of the bits of a report (R139): the CLK cycles to the next sample, and the levels read so far, the
start bit's first, `true` for high. -/
structure Sampler where
  untilNext : Nat
  levels    : List Bool
  deriving DecidableEq, Repr

/-- Whether the own report is going out, with what has been read back of it, and whether it was cut short (R138,
R148). -/
inductive Transmitter where
  | idle
  | sending (readBack : Sampler)
  | stopped
  deriving DecidableEq, Repr

/-- Whether a report is being read (R138): its slot, and the bits read from the falling edge of the start bit on
(R147). -/
inductive Receiver where
  | idle
  | receiving (slot : Fin 16) (rx : Sampler)
  deriving DecidableEq, Repr

/-- The mark driver (R142): idle, waiting for the line to have been high for 32 bit times, or driving the line low
since `elapsed` CLK cycles. Implied by R142, which names the wait and the 16-bit-time drive. -/
inductive MarkDriver where
  | idle
  | waiting
  | driving (elapsed : Nat)
  deriving DecidableEq, Repr

/-- Where the cycle stands with respect to the own slot: own-slot-start and own-slot-end are each taken once in a cycle
(R145, R146). -/
inductive SlotPhase where
  | before | during | after
  deriving DecidableEq, Repr

/-- The Line Interface's record (R138), with the state its other rules imply. -/
structure LineInterface where
  /-- The cycle timer: stopped, or CLK cycles since the falling edge of the last mark taken (R138). -/
  cycleTimer    : Option Nat
  /-- The message window is open (R138, R145). -/
  windowOpen    : Bool
  /-- The cycle sequence (R138). -/
  sequence      : Sequence
  /-- The lowest sequence of the cycle's valid reports, or none (R138, R152). -/
  lowestHeard   : Option Sequence
  /-- The echo-failure count, 0..15 (R138, R150). -/
  echoFailures  : Nat
  /-- The transmitter (R138). -/
  transmitter   : Transmitter
  /-- The receiver (R138). -/
  receiver      : Receiver
  /-- The level the LINE pin reads: low while any station drives it (R139). -/
  lineLow       : Bool
  /-- CLK cycles since the line last rose, while it is high; while it is low, how long the high before it lasted (R138). -/
  highTime      : Nat
  /-- CLK cycles since the line last fell, while it is low; while it is high, how long the low before it lasted (R138). -/
  lowTime       : Nat
  /-- The founding wait: stopped, or running (R138, R109). -/
  foundingWait  : Option Nat
  /-- The founding wait had reached two own cycle lengths when the mark of this very moment restarted it, and the
  founding flag has not been set yet: the two fall together (R155). -/
  foundingDue   : Bool
  /-- The line-clear measure: stopped, or running (R138, R154). -/
  clearMeasure  : Option Nat
  /-- The line-fault measure of R154: it runs from the falling edge, or from the moment the detector is switched on. -/
  faultMeasure  : Option Nat
  /-- The last low reached 64 bit times by the line-fault measure and has ended, its line-fault event not taken yet
  (R154). -/
  faultDue      : Bool
  /-- The present low began after 32 bit times of high and while the window was closed (R141, second and third
  conditions), and has not been taken as a mark. -/
  lowMayBeMark  : Bool
  /-- The mark driver (R142). -/
  markDriver    : MarkDriver
  /-- Where the cycle stands with respect to the own slot (R145). -/
  slotPhase     : SlotPhase
  /-- The report composed at own-slot-start, until its slot ends or it is dropped (R30, R146). -/
  ownReport     : Option Report
  /-- The whole own report was sent and every bit matched in this own slot (R149). -/
  reportSent    : Bool
  /-- The line read low at a sample in slot bits 0 to 3 of the own slot, so the transmitter does not start (R146). -/
  heldOff       : Bool
  /-- The slot of this cycle in which a report was last taken: nothing more is looked for in it (R147). -/
  slotRead      : Option (Fin 16)
  deriving DecidableEq, Repr

/-! ### Output Sequencer (OS) -/

/-- The Output Sequencer's record and the pins OUT0 to OUT3, `true` for high (R125, R131). -/
structure OutputSequencer where
  counter : Nat
  running : Bool
  staged  : PerChannel (Option Span)
  active  : PerChannel (Option Span)
  pins    : PerChannel Bool
  deriving DecidableEq, Repr

/-! ### Notice Queue (NQ) -/

/-- The cause of a refusal, with the named witness where the cause names one (R68, R165). -/
inductive RefusalCause where
  | echo
  | peerUnheard (witness : StationNo)
  | notAcked (witness : StationNo)
  deriving DecidableEq, Repr

/-- The seventeen kinds of notice, each with the fields R166 gives it beyond the sequence. -/
inductive NoticeKind where
  | joined
  | peerArrived (station : StationNo)
  | peerLost (station : StationNo)
  | peerLeft (station : StationNo)
  | granted (channel : ChannelNo) (span : Span) (short : Bool)
  | refused (channel : ChannelNo) (span : Span) (cause : RefusalCause)
  | noRoom (channel : ChannelNo)
  | yielded (channel : ChannelNo) (span : Span) (winner : StationNo) (winningChannel : ChannelNo)
  | leaseLapsed
  | earlyRenew
  | silenced
  | restored
  | lineFault
  | lineClear
  | departed
  | sequenceAdopted (old new : Sequence)
  | numberInUse (station : StationNo)
  deriving DecidableEq, Repr

/-- A notice record: its kind and the cycle sequence at its issue (R165). -/
structure Notice where
  kind     : NoticeKind
  sequence : Sequence
  deriving DecidableEq, Repr

/-- The Notice Queue's record and the HINT pin, `hintLow` for its active level (R164, R169). The fill is the queue's
length. -/
structure NoticeQueue where
  queue   : List Notice
  lost    : Nat
  hintLow : Bool
  deriving DecidableEq, Repr

/-! ### Host Port (HP) -/

/-- The response codes (R179). -/
inductive ResponseCode where
  | ok | badState | badArg | shortFrame | unknown | early
  deriving DecidableEq, Repr

/-- A response: its code and the data bytes after it (R175). -/
structure Response where
  code : ResponseCode
  data : List Byte
  deriving DecidableEq, Repr

/-- The level of HCS, and what its low stands for (R176, R189). A frame is in progress exactly in the phase `frame`. -/
inductive HcsPhase where
  /-- HCS is high. -/
  | high
  /-- HCS fell before it had been high for 2 µs: the frame begins when they have run (R176). -/
  | early
  /-- HCS is low, and a frame is in progress. -/
  | frame
  /-- HCS is low and no frame comes of it: it fell while RESET was low, or RESET fell while it was low (R189). -/
  | ignored
  deriving DecidableEq, Repr

/-- The Host Port's record (R175), the HSDO pin, what R176 implies beside it, and a field of the model. -/
structure HostPort where
  /-- The held response. -/
  held        : Response
  /-- The level of HCS. The record's frame in progress is the phase `frame`. -/
  hcs         : HcsPhase
  /-- The complete bytes shifted in. -/
  received    : List Byte
  /-- The bits shifted in of the byte that is not complete yet, the first one first (R176). -/
  partialBits : List Bool
  /-- The bit of the current byte to be sampled next, 0..7. -/
  bitPos      : Nat
  /-- The byte of the held response to be shifted out next. -/
  outPos      : Nat
  /-- The HSDO pin, `true` for high: in a frame the bit of the held response that the last falling edge of HSCK, or the
  frame's beginning, has put there (R176, R177); low while HCS is high and while RESET is low (R177, R189). While HCS is
  low with no frame in progress it stays low: DESIGN CHOICE, log 24. -/
  hsdo        : Bool
  /-- The level of HSCK, `true` for high (R176). -/
  hsck        : Bool
  /-- The MODEL's own field: the edges of HSCK that are to come, the first one's time counted from now (log 7). -/
  toClock     : List HsckEdge
  /-- CLK cycles since HCS last rose, while no frame is in progress: the 2 µs of R176 are measured on it. -/
  sinceRise   : Nat
  /-- The MODEL's own field: the bits HSDO showed in the HSCK periods of the frame in progress, or else of the last one
  (R177). -/
  shown       : List Bool
  deriving DecidableEq, Repr

/-- The `frame in progress` field of R175. -/
def HostPort.inFrame (p : HostPort) : Bool := decide (p.hcs = .frame)

/-! ### The whole machine -/

/-- The state of the LS416. -/
structure State where
  /-- The configuration, absent until a CONFIGURE is accepted (R183). -/
  config     : Option Configuration
  /-- Line Interface. -/
  line       : LineInterface
  /-- Report Codec: the receive error count, 0..255 (R42). -/
  rxErrors   : Nat
  /-- Span Map, in map order (R1, R4). -/
  map        : List Entry
  /-- Claim Engine: the channel records (R47). -/
  channels   : PerChannel ChannelRecord
  /-- Claim Engine: the outstanding-claim record (R59). -/
  claim      : Option ClaimRecord
  /-- Roster (R96). -/
  roster     : PerStation Row
  /-- Membership Controller (R104). -/
  member     : Membership
  /-- Output Sequencer (R125). -/
  output     : OutputSequencer
  /-- Demand and Lease Unit: the demand registers (R156). -/
  demand     : PerChannel Nat
  /-- Demand and Lease Unit: the lease count, 0..255 (R156). -/
  leaseCount : Nat
  /-- Notice Queue (R164). -/
  notices    : NoticeQueue
  /-- Host Port (R175). -/
  port       : HostPort
  /-- RESET is held low (R124, R189). -/
  resetHeld  : Bool
  /-- The MODEL's own field: how many of the orders the manual leaves open have been chosen so far (log 3). -/
  choices    : Nat
  /-- The MODEL's own field: the commands that are waiting, first in, first out. -/
  pending    : List Instr
  deriving DecidableEq, Repr

/-- The `configured` field of R104: a configuration has been accepted since the last full reset. -/
def State.configured (s : State) : Bool := s.config.isSome

/-- Why the machine stops with a fault. The manual gives the part no fault that stops it (a line fault is a station
state, not a stop), so there is no reason, and no command faults. -/
inductive Fault where
  deriving DecidableEq, Repr

/-- Why a command has no meaning. -/
inductive Refusal where
  /-- The command's meaning has not been written. Raised by no arm of exec in this model. Safe. -/
  | notModelled (mnemonic : String)
  /-- The term is no command of its row: a SHORT_FRAME whose bits are a whole frame of a known command or begin with
  an unknown byte, or an UNKNOWN whose byte is in the command table. Raised by those two meanings only. No hardware
  event is such a term, so the stop is safe. -/
  | illFormed (mnemonic : String)
  deriving DecidableEq, Repr

/-! ### Reset values -/

/-- A channel record after a full reset or a restart (R48). -/
def ChannelRecord.reset : ChannelRecord :=
  { state := .idle, demand := 0, held := none, deficit := 0, streak := 0, wait := 0, claimed := false }

/-- The Membership Controller's counts and flags at 0 or clear, in a given station state (R104). -/
def Membership.clear (st : StationState) : Membership :=
  { state := st, listenCount := 0, founding := false, numberInUse := false, newMember := false,
    departureCount := 0, restoreCount := 0 }

/-- The Line Interface after a full reset (R138). The manual gives the level of the line no reset value, since other
stations may drive it: the model takes it high, with no time passed (log 1). -/
def LineInterface.reset : LineInterface :=
  { cycleTimer := none, windowOpen := false, sequence := 0, lowestHeard := none, echoFailures := 0,
    transmitter := .idle, receiver := .idle, lineLow := false, highTime := 0, lowTime := 0,
    foundingWait := none, foundingDue := false, clearMeasure := none, faultMeasure := none, faultDue := false,
    lowMayBeMark := false, markDriver := .idle, slotPhase := .before, ownReport := none, reportSent := false, heldOff := false,
    slotRead := none }

/-- The Output Sequencer after a full reset or a restart, and in every state with no cycle: counter 0 and stopped,
both sets empty, every pin low (R125, R127, R134). -/
def OutputSequencer.clear : OutputSequencer :=
  { counter := 0, running := false, staged := Vector.replicate 4 none, active := Vector.replicate 4 none,
    pins := Vector.replicate 4 false }

/-- The Notice Queue after a full reset or a restart: empty, nothing lost, HINT high (R164). -/
def NoticeQueue.clear : NoticeQueue := { queue := [], lost := 0, hintLow := false }

/-- OK with no data, the held response after a reset (R175). -/
def Response.okEmpty : Response := { code := .ok, data := [] }

/-- The Host Port after a full reset (R175). The manual gives the level of HCS no reset value: the model takes it high,
with no time passed (log 1). HSCK idles low (R176). -/
def HostPort.reset : HostPort :=
  { held := .okEmpty, hcs := .high, received := [], partialBits := [], bitPos := 0, outPos := 0, hsdo := false,
    hsck := false, toClock := [], sinceRise := 0, shown := [] }

/-- The empty roster (R96). -/
def emptyRoster : PerStation Row := Vector.replicate 16 Row.empty

/-- Every channel record at its reset value (R48). -/
def resetChannels : PerChannel ChannelRecord := Vector.replicate 4 ChannelRecord.reset

/-- The machine right after a full reset and the release of RESET: DORMANT, not configured, taking frames that begin
afterwards (R124, R189). -/
def State.reset : State :=
  { config := none, line := .reset, rxErrors := 0, map := [], channels := resetChannels, claim := none,
    roster := emptyRoster, member := .clear .dormant, output := .clear, demand := Vector.replicate 4 0,
    leaseCount := 0, notices := .clear, port := .reset, resetHeld := false, choices := 0, pending := [] }

end Sys2Proof.Machine
end

