-- ==== Sys2Proof/Machine/Codec.lean ====
section
/-! DEFINITION. The Report Codec's bits: the layout of a report's data bits (R191), its check, and the start bit and
spacers that frame it on the line (R140). A bit is `true` for 1, which is the released, high line (R139). -/

namespace Sys2Proof.Machine

/-! ### Numbers as bits, most significant first (R139) -/

/-- The low `w` bits of a number, most significant first. -/
def toBits : Nat → Nat → List Bool
  | 0, _ => []
  | w + 1, n => n.testBit w :: toBits w n

/-- The number a list of bits spells, most significant first. -/
def ofBits (bits : List Bool) : Nat := bits.foldl (fun n b => 2 * n + b.toNat) 0

/-! ### Encoding (R191) -/

/-- An item: kind, channel, start, length − 1 and weight, in 1, 2, 6, 6 and 5 bits (R191). -/
def itemBits (it : Item) : List Bool :=
  decide (it.kind = .claim) :: toBits 2 it.channel.val ++ toBits 6 it.span.start.val
    ++ toBits 6 (it.span.length - 1) ++ toBits 5 it.weight

/-- The ack set: station 15 first, down to station 0 (R191). -/
def setBits (set : StationSet) : List Bool := stationOrder.reverse.map (fun st => set[st])

/-- The data bits before the check: sender, sequence, N, D, ack set, item count and items (R191). -/
def bodyBits (r : Report) : List Bool :=
  toBits 4 r.sender.val ++ toBits 8 r.sequence.toNat ++ [r.newMember, r.departing] ++ setBits r.ackSet
    ++ toBits 4 r.items.length ++ r.items.flatMap itemBits

/-- One bit into the check register (R191). -/
def checkStep (reg : BitVec 16) (b : Bool) : BitVec 16 :=
  if reg.msb ^^ b then (reg <<< 1) ^^^ 0x1021#16 else reg <<< 1

/-- The check over a run of data bits: the register begins with every bit 1 (R191). -/
def checkOf (bits : List Bool) : BitVec 16 := bits.foldl checkStep 0xFFFF#16

/-- The data bits of a report: the body and its 16 check bits (R191). -/
def dataBits (r : Report) : List Bool := bodyBits r ++ toBits 16 (checkOf (bodyBits r)).toNat

/-- A spacer of the opposite level after each 27 data bits, where more data bits follow (R140). `k` counts the data
bits to the next spacer. -/
def addSpacers : Nat → List Bool → List Bool
  | _, [] => []
  | _, [b] => [b]
  | 0, b :: c :: bits => b :: (!b) :: addSpacers 26 (c :: bits)
  | k + 1, b :: c :: bits => b :: addSpacers k (c :: bits)

/-- A report on the line: the start bit, its spacer, then data bits and spacers (R140). -/
def lineBits (r : Report) : List Bool := false :: true :: addSpacers 26 (dataBits r)

/-- The bits of a report of `n` items on the line, start bit to last check bit (R140). -/
def lineLength (n : Nat) : Nat := 2 + (50 + 20 * n) + (49 + 20 * n) / 27

/-! ### Decoding -/

/-- The data bits among the bits read after the start bit: the first bit is the start bit's spacer, and another follows
each 27 data bits (R140). `k` counts the data bits to the next spacer. -/
def dropSpacers : Nat → List Bool → List Bool
  | _, [] => []
  | 0, _ :: bits => dropSpacers 27 bits
  | k + 1, b :: bits => b :: dropSpacers k bits

/-- The number in the first `w` bits. -/
def field (w : Nat) (bits : List Bool) : Nat := ofBits (bits.take w)

/-- An item from the bits at its place (R191). -/
def itemOf (bits : List Bool) : Item :=
  { kind := if bits.headD false then .claim else .standing
    channel := Fin.ofNat 4 (field 2 (bits.drop 1))
    span := { start := Fin.ofNat 64 (field 6 (bits.drop 3)), length := field 6 (bits.drop 9) + 1 }
    weight := field 5 (bits.drop 15) }

/-- `n` items, 20 bits each. -/
def itemsOf : Nat → List Bool → List Item
  | 0, _ => []
  | n + 1, bits => itemOf bits :: itemsOf n (bits.drop 20)

/-- The ack set from its 16 bits, station 15 first (R191). -/
def setOf (bits : List Bool) : StationSet := Vector.ofFn (fun (i : Fin 16) => bits.getD (15 - i.val) false)

/-- A report as the receiver reads it: the fields, the item count, and whether the check is right. -/
structure Received where
  report  : Report
  count   : Nat
  checkOk : Bool
  deriving DecidableEq, Repr

/-- The items the receiver reads: as many as the count says, and eight for a count of 9 to 15, since it then reads to
where a report of eight items would end (R39). -/
def readCount (count : Nat) : Nat := min count 8

/-- The fields of R27 from the data bits (R191). -/
def receivedOf (data : List Bool) : Received :=
  let count := field 4 (data.drop 30)
  let body := 34 + 20 * readCount count
  { report :=
      { sender := Fin.ofNat 16 (field 4 data)
        sequence := BitVec.ofNat 8 (field 8 (data.drop 4))
        newMember := (data.drop 12).headD false
        departing := (data.drop 13).headD false
        ackSet := setOf (data.drop 14)
        items := itemsOf (readCount count) (data.drop 34) }
    count := count
    checkOk := decide ((checkOf (data.take body)).toNat = field 16 (data.drop body)) }

/-- A reception: the spacers are discarded, and bits that no station drives read as 1, so that a report cut short is
read as 1s to its end (R147). -/
def receive (bits : List Bool) : Received := receivedOf (dropSpacers 0 (bits ++ List.replicate 218 true))

/-! ### Validation (R40) -/

/-- Whether no two items have the same kind and channel (R40). -/
def itemsUnique : List Item → Bool
  | [] => true
  | it :: items => items.all (fun jt => decide (¬(it.kind = jt.kind ∧ it.channel = jt.channel))) && itemsUnique items

/-- The slot-ownership test: the sender is (k + q) mod 16 under the report's own sequence (R40). -/
def slotOwned (slot : Fin 16) (r : Report) : Bool := decide (r.sender.val = (slot.val + r.sequence.toNat) % 16)

/-- A report is valid when every test of R40 passes. -/
def valid (own : StationNo) (slot : Fin 16) (rx : Received) : Bool :=
  rx.checkOk && slotOwned slot rx.report && decide (rx.count ≤ 8) && itemsUnique rx.report.items
    && rx.report.items.all (fun it => decide (it.weight ≠ 0))
    && !(rx.report.departing && decide (0 < rx.count)) && decide (rx.report.sender ≠ own)

end Sys2Proof.Machine
end

