-- ==== Sys2Proof/Machine/Formats.lean ====
section
/-! DEFINITION. The byte formats of the host port (chapters 10 and 11): the command table, the configuration record, and
the records returned to the host. -/

namespace Sys2Proof.Machine

/-- A number as one byte. -/
def byte (n : Nat) : Byte := BitVec.ofNat 8 n

/-- A flag as a bit of a byte. -/
def bit (b : Bool) : Nat := if b then 1 else 0

/-! ### Bytes on the port (R176) -/

/-- The bits of a byte in the order they are shifted, most significant first (R176). -/
def byteBits (b : Byte) : List Bool := toBits 8 b.toNat

/-- The complete bytes among some bits: each eight make one, and those of an incomplete byte are left out (R176). -/
def completeBytes : List Bool → List Byte
  | b7 :: b6 :: b5 :: b4 :: b3 :: b2 :: b1 :: b0 :: bits =>
    BitVec.ofNat 8 (ofBits [b7, b6, b5, b4, b3, b2, b1, b0]) :: completeBytes bits
  | _ => []

/-- The bits of the byte that is left incomplete (R176). -/
def incompleteByte (bits : List Bool) : List Bool := bits.drop (8 * (bits.length / 8))

/-- The bits of a frame: the bytes a command needs, then the bits beyond them (R178). -/
def frameBits (bytes : List Byte) (extra : List Bool) : List Bool := bytes.flatMap byteBits ++ extra

/-! ### The command table (R182, R192) -/

/-- The bytes a command needs, its command byte included, or none for a byte outside the command table (R182, R192). -/
def commandLength (b : Byte) : Option Nat :=
  match b.toNat with
  | 0x00 => some 1
  | 0x11 => some 16
  | 0x21 => some 1
  | 0x22 => some 1
  | 0x2F => some 1
  | 0x31 => some 3
  | 0x32 => some 1
  | 0x41 => some 1
  | 0x42 => some 1
  | 0x43 => some 3
  | 0x44 => some 2
  | _ => none

/-- Whether a frame's complete bytes make it a SHORT FRAME: none at all, or fewer than its known command needs (R178). -/
def isShortFrame (bytes : List Byte) : Bool :=
  match bytes with
  | [] => true
  | b :: _ =>
    match commandLength b with
    | some n => decide (bytes.length < n)
    | none => false

/-! ### The configuration record (R193) -/

/-- A channel's pair of bytes: enabled flag and weight, then the floor (R193). -/
def channelConfigOf (b0 b1 : Byte) : ChannelConfig :=
  { enabled := b0.msb, weight := b0.toNat % 32, floor := b1.toNat }

/-- The record in field form, before any check: a bit not used is read as nothing, and an E of 0 is held as 4 (R193). -/
def configurationOf (r : Vector Byte 15) : Configuration :=
  { station := Fin.ofNat 16 (r[0].toNat / 16)
    sliceCode := Fin.ofNat 4 (r[0].toNat % 4)
    budget := r[1].toNat * 256 + r[2].toNat
    expiry := if r[3].toNat % 16 = 0 then 4 else r[3].toNat % 16
    lease := r[4].toNat
    threshold := r[5].toNat
    channels := #v[channelConfigOf r[6] r[7], channelConfigOf r[8] r[9], channelConfigOf r[10] r[11],
      channelConfigOf r[12] r[13]] }

/-- Every field of a configuration within its range (R183). -/
def Configuration.inRange (cfg : Configuration) : Bool :=
  decide (1 ≤ cfg.budget ∧ cfg.budget ≤ 1023) && decide (3 ≤ cfg.expiry ∧ cfg.expiry ≤ 15)
    && decide (cfg.lease = 0 ∨ (8 ≤ cfg.lease ∧ cfg.lease ≤ 255))
    && decide (1 ≤ cfg.threshold ∧ cfg.threshold ≤ 32)
    && channelOrder.all (fun c =>
      decide (1 ≤ cfg.channels[c].weight ∧ cfg.channels[c].weight ≤ 31)
        && decide (1 ≤ cfg.channels[c].floor ∧ cfg.channels[c].floor ≤ 64))

/-- The record sum: bytes 0 to 14 sum to 0 modulo 256 (R193). -/
def recordSumOk (r : Vector Byte 15) : Bool := decide ((r.toList.map BitVec.toNat).sum % 256 = 0)

/-- The configuration a record carries, or none if a field is out of range or the sum is wrong (R193). -/
def parseRecord (r : Vector Byte 15) : Option Configuration :=
  if recordSumOk r && (configurationOf r).inRange then some (configurationOf r) else none

/-! ### Response codes and enumerations (R192, R194) -/

/-- The code byte of a response (R192). -/
def ResponseCode.byte : ResponseCode → Byte
  | .ok => 0x80
  | .badState => 0x81
  | .badArg => 0x82
  | .shortFrame => 0x83
  | .unknown => 0x84
  | .early => 0x85

/-- The bytes of a response on HSDO, code first (R177). -/
def Response.bytes (r : Response) : List Byte := r.code.byte :: r.data

/-- The bits of a response as HSDO shows them (R177). -/
def Response.bits (r : Response) : List Bool := r.bytes.flatMap byteBits

/-- What HSDO shows in `n` HSCK periods of a frame: the held response bit by bit, then zeros (R177). -/
def shiftOut (r : Response) (n : Nat) : List Bool := (r.bits ++ List.replicate n false).take n

/-- What HSDO shows after `n` HSCK periods of a frame (R176, R177). -/
def Response.bitAt (r : Response) (n : Nat) : Bool := r.bits.getD n false

/-- The code of a station state (R194). -/
def StationState.code : StationState → Nat
  | .dormant => 0
  | .ready => 1
  | .listening => 2
  | .member => 3
  | .departing => 4
  | .silenced => 5
  | .lineFault => 6

/-- The code of a channel state (R194). -/
def ChannelState.code : ChannelState → Nat
  | .idle => 0
  | .seeking => 1
  | .blocked => 2
  | .claimed => 3
  | .held => 4
  | .backoff => 5

/-- The code of a roster status (R194). -/
def RowStatus.code : RowStatus → Nat
  | .absent => 0
  | .live => 1
  | .departing => 2

/-! ### The records (R194) -/

/-- A set of stations as two bytes, bit 15 of the pair for station 15 (R194). -/
def setBytes (set : StationSet) : List Byte :=
  let n := stationOrder.foldr (fun st n => 2 * n + bit set[st]) 0
  [byte (n / 256), byte n]

/-- The seven bytes of one channel in the status record (R194). -/
def channelBytes (r : ChannelRecord) : List Byte :=
  [byte r.state.code, byte r.demand,
   (match r.held with | some sp => byte (128 + sp.start.val) | none => 0),
   (match r.held with | some sp => byte sp.length | none => 0),
   byte r.deficit, byte r.streak, byte r.wait]

/-- The set of LIVE rows (R101). -/
def liveSet (roster : PerStation Row) : StationSet := Vector.ofFn (fun st => decide (roster[st].status = .live))

/-- The status record, 37 bytes (R187, R194). -/
def statusRecord (s : State) : List Byte :=
  [byte s.member.state.code, s.line.sequence] ++ setBytes (liveSet s.roster)
    ++ [byte s.line.echoFailures, byte s.rxErrors, byte s.leaseCount, byte s.notices.queue.length,
        byte s.notices.lost]
    ++ channelOrder.flatMap (fun c => channelBytes s.channels[c])

/-- A roster row, 2 bytes (R194). -/
def rowBytes (st : StationNo) (r : Row) : List Byte :=
  [byte (st.val * 16 + r.status.code),
   byte (r.silence * 16 + bit r.heard * 8 + bit r.accept * 4 + bit r.ackForMe * 2 + bit r.sentAck)]

/-- The fifteen rows other than the own row, in ascending station number (R101, R188). -/
def rosterBytes (own : StationNo) (roster : PerStation Row) : List Byte :=
  (stationOrder.filter (fun st => decide (st ≠ own))).flatMap (fun st => rowBytes st roster[st])

/-- A span entry, 5 bytes (R194). -/
def entryBytes (e : Entry) : List Byte :=
  [byte (e.owner.val * 16 + e.channel.val * 4
      + (match e.kind with | .standing => 0 | .reserved _ => 2) + bit e.overlap),
   byte e.span.start.val, byte e.span.length, byte e.weight,
   (match e.kind with | .standing => 0 | .reserved a => byte a)]

/-- The entries READ SPANS returns: up to `count` in map order from the index, wrapping, none twice (R24). -/
def selectEntries (m : List Entry) (index count : Nat) : List Entry := (m.drop index ++ m.take index).take count

/-- The fields a notice record carries beyond its kind code and sequence: the presence bits, the byte of station and
channels, bytes 4 and 5, and byte 6 (R194). -/
structure NoticeFields where
  code     : Nat
  presence : Nat
  numbers  : Nat
  fourth   : Byte
  fifth    : Byte
  sixth    : Nat

/-- A station field alone (R194). -/
def stationNotice (code : Nat) (st : StationNo) : NoticeFields :=
  { code := code, presence := 128, numbers := st.val * 16, fourth := 0, fifth := 0, sixth := 0 }

/-- No field beyond kind and sequence (R194). -/
def plainNotice (code : Nat) : NoticeFields :=
  { code := code, presence := 0, numbers := 0, fourth := 0, fifth := 0, sixth := 0 }

/-- The fields of each kind of notice: presence bits for exactly the fields R166 gives the kind (R194). -/
def NoticeKind.fields : NoticeKind → NoticeFields
  | .joined => plainNotice 1
  | .peerArrived st => stationNotice 2 st
  | .peerLost st => stationNotice 3 st
  | .peerLeft st => stationNotice 4 st
  | .granted c sp short =>
    { code := 5, presence := 64 + 32 + 8, numbers := c.val * 4, fourth := byte sp.start.val, fifth := byte sp.length,
      sixth := bit short }
  | .refused c sp .echo =>
    { code := 6, presence := 64 + 32 + 16, numbers := c.val * 4, fourth := byte sp.start.val, fifth := byte sp.length,
      sixth := 1 * 64 }
  | .refused c sp (.peerUnheard w) =>
    { code := 6, presence := 128 + 64 + 32 + 16, numbers := w.val * 16 + c.val * 4, fourth := byte sp.start.val,
      fifth := byte sp.length, sixth := 2 * 64 }
  | .refused c sp (.notAcked w) =>
    { code := 6, presence := 128 + 64 + 32 + 16, numbers := w.val * 16 + c.val * 4, fourth := byte sp.start.val,
      fifth := byte sp.length, sixth := 3 * 64 }
  | .noRoom c => { code := 7, presence := 64, numbers := c.val * 4, fourth := 0, fifth := 0, sixth := 0 }
  | .yielded c sp o wc =>
    { code := 8, presence := 128 + 64 + 32 + 4, numbers := o.val * 16 + c.val * 4 + wc.val,
      fourth := byte sp.start.val, fifth := byte sp.length, sixth := 0 }
  | .leaseLapsed => plainNotice 9
  | .earlyRenew => plainNotice 10
  | .silenced => plainNotice 11
  | .restored => plainNotice 12
  | .lineFault => plainNotice 13
  | .lineClear => plainNotice 14
  | .departed => plainNotice 15
  | .sequenceAdopted old new =>
    { code := 16, presence := 2, numbers := 0, fourth := old, fifth := new, sixth := 0 }
  | .numberInUse st => stationNotice 17 st

/-- A notice record, 7 bytes (R194). -/
def noticeBytes (n : Notice) : List Byte :=
  let f := n.kind.fields
  [byte f.code, n.sequence, byte f.presence, byte f.numbers, f.fourth, f.fifth, byte f.sixth]

end Sys2Proof.Machine
end

