-- ==== Sys2Proof/Decode.lean ====
section
/-! DEFINITION. From bits to commands. No row of spec/opcode_table.json gives a command any bits (every row's "fields" is
empty and none has a fixed part), so no word spells a command by the table's bits. The bits the manual itself gives the
host's commands are those of a frame on the port (R176, R178, R192): decodeFrame reads them, and Instr.frameBits writes
them. -/

namespace Sys2Proof

/-- The command that a word spells by the table's bits: the table gives none, so there is none. -/
def decodeTableWord (_nbits _w : Nat) : Option Instr := none

open Machine in
/-- The known command of a frame that has the bytes it needs: its parameters are the bytes after the command byte, and
`extra` the bits beyond those it needs (R182, R192). A byte outside the command table is no known command (R178). -/
def knownCommand (command : Byte) (params : List Byte) (extra : List Bool) : Instr :=
  match command.toNat with
  | 0x00 => .fetch extra
  | 0x11 => .configure (Vector.ofFn (fun (i : Fin 15) => params.getD i.val 0)) extra
  | 0x21 => .join extra
  | 0x22 => .depart extra
  | 0x2F => .restart extra
  | 0x31 => .demand (params.getD 0 0) (params.getD 1 0) extra
  | 0x32 => .renew extra
  | 0x41 => .status extra
  | 0x42 => .readRoster extra
  | 0x43 => .readSpans (params.getD 0 0) (params.getD 1 0) extra
  | 0x44 => .takeNotices (params.getD 0 0) extra
  | _ => .unknown command extra

open Machine in
/-- The command that a frame of these bits is at its end, by the four cases of R178 and the command bytes of R192. -/
def decodeFrame (bits : List Bool) : Instr :=
  match completeBytes bits with
  | [] => .shortFrame bits
  | command :: params =>
    match commandLength command with
    | none => .unknown command (bits.drop 8)
    | some n =>
      if params.length + 1 < n then .shortFrame bits else knownCommand command params (bits.drop (8 * n))

open Machine in
/-- The bits of the frame a command ends, command byte first, each byte most significant bit first (R176, R178, R192);
none for a command that ends no frame. -/
def Instr.frameBits : Instr → Option (List Bool)
  | .shortFrame bits => some bits
  | .unknown command rest => some (Machine.frameBits [command] rest)
  | .fetch extra => some (Machine.frameBits [0x00] extra)
  | .configure record extra => some (Machine.frameBits (0x11 :: record.toList) extra)
  | .join extra => some (Machine.frameBits [0x21] extra)
  | .depart extra => some (Machine.frameBits [0x22] extra)
  | .restart extra => some (Machine.frameBits [0x2F] extra)
  | .demand channel length extra => some (Machine.frameBits [0x31, channel, length] extra)
  | .renew extra => some (Machine.frameBits [0x32] extra)
  | .status extra => some (Machine.frameBits [0x41] extra)
  | .readRoster extra => some (Machine.frameBits [0x42] extra)
  | .readSpans index count extra => some (Machine.frameBits [0x43, index, count] extra)
  | .takeNotices count extra => some (Machine.frameBits [0x44, count] extra)
  | .frameBegin _ _ | .fullReset | .resetRelease | .founding | .cycleTimerExpiry | .deferredMarkDrive | .mark
  | .waitExpiry | .joined | .leaseLapsed | .sliceBoundary | .ownSlotStart | .transmitStart | .echoMismatch _
  | .transmitEnd | .ownSlotEnd | .silenced | .departingEchoClear | .restored | .reportArrival _ | .settlePoint
  | .peerLost | .departed | .lineFault | .lineClear | .deferredFrameBegin _ | .lineRisingEdge _
  | .lineFallingEdge _ => none

end Sys2Proof
end

