-- ==== Sys2Proof/Config.lean ====
section
/-! DEFINITION. What the manual leaves open and no command decides. Each is a constant with no body: nothing can
evaluate it, and a claim about the machine holds whatever it is. The configuration a host loads with CONFIGURE is not
here: it is state (Machine/State.lean). -/

namespace Sys2Proof

/-- The order in which the blocks take one settle point, where R167 lets the notices of different blocks stand in
either order. The argument is the count of such choices made so far, so that every settle point may come out
differently. The three numbers place the Claim Engine, the Line Interface's adoption and the Membership Controller
among the blocks already ordered (Machine/CycleEvents.lean, settleOrder). Assumption log 3. -/
opaque Config.settleChoice : Nat → Nat × Nat × Nat

/-- Whether the Demand and Lease Unit takes a mark before the Membership Controller does: R160 lets LEASE LAPSED and
JOINED of one mark stand in either order. The argument is the count of such choices made so far. Assumption log 3. -/
opaque Config.lapseBeforeJoin : Nat → Bool

end Sys2Proof
end

