-- ==== Sys2Proof/Machine/SpanMap.lean ====
section
/-! DEFINITION. The Span Map: coverage, load, fit, map order and the changes to entries (chapter 1). The functions here
work on a list of entries; Machine/Ops.lean puts a changed map into the state. -/

namespace Sys2Proof.Machine

/-- The slice `i` slices after `start`, modulo 64. -/
def sliceAt (start : Slice) (i : Nat) : Slice := Fin.ofNat 64 (start.val + i)

/-- The slices a span covers, from its start on (R5). -/
def Span.slices (sp : Span) : List Slice := (List.range sp.length).map (sliceAt sp.start)

/-- Whether a span covers a slice (R5). -/
def Span.covers (sp : Span) (k : Slice) : Bool := decide ((k.val + 64 - sp.start.val) % 64 < sp.length)

/-- A span has a length of 1 to 64 (R1). -/
def Span.wf (sp : Span) : Bool := decide (1 ≤ sp.length ∧ sp.length ≤ 64)

/-! ### Entries and map order -/

/-- Whether an entry is STANDING. -/
def Entry.isStanding (e : Entry) : Bool :=
  match e.kind with
  | .standing => true
  | .reserved _ => false

/-- The kind's place in map order: STANDING comes before RESERVED (R4). -/
def Entry.kindRank (e : Entry) : Nat := if e.isStanding then 0 else 1

/-- Whether an entry belongs to an (owner, channel). -/
def Entry.ofPair (o : StationNo) (c : ChannelNo) (e : Entry) : Bool := decide (e.owner = o ∧ e.channel = c)

/-- An entry's place in map order: by start, then owner, then channel, then kind (R4), written as one number. -/
def Entry.rank (e : Entry) : Nat :=
  e.span.start.val * 128 + e.owner.val * 8 + e.channel.val * 2 + e.kindRank

/-- Whether two entries are of the same kind and (owner, channel), so that one replaces the other (R3). -/
def Entry.samePlace (e f : Entry) : Bool :=
  decide (e.owner = f.owner ∧ e.channel = f.channel ∧ e.isStanding = f.isStanding)

/-- Insertion in map order. -/
def insertOrdered (e : Entry) : List Entry → List Entry
  | [] => [e]
  | f :: m => if e.rank < f.rank then e :: f :: m else f :: insertOrdered e m

/-- Creates an entry, replacing the one of its kind and (owner, channel) if there is one (R3). -/
def mapInsert (e : Entry) (m : List Entry) : List Entry := insertOrdered e (m.filter (fun f => !f.samePlace e))

/-- Removes the STANDING entry of an (owner, channel). -/
def removeStanding (o : StationNo) (c : ChannelNo) (m : List Entry) : List Entry :=
  m.filter (fun e => !(e.ofPair o c && e.isStanding))

/-- Removes the RESERVED entry of an (owner, channel). -/
def removeReserved (o : StationNo) (c : ChannelNo) (m : List Entry) : List Entry :=
  m.filter (fun e => !(e.ofPair o c && !e.isStanding))

/-- Removes every entry of an owner, of both kinds (R11, R15, R20). -/
def removeOwner (o : StationNo) (m : List Entry) : List Entry := m.filter (fun e => decide (e.owner ≠ o))

/-- Removes both entries of an (owner, channel), as the fit test leaves them out (R7). -/
def withoutPair (o : StationNo) (c : ChannelNo) (m : List Entry) : List Entry := m.filter (fun e => !e.ofPair o c)

/-- The STANDING entry of an (owner, channel), if there is one. -/
def standingOf (m : List Entry) (o : StationNo) (c : ChannelNo) : Option Entry :=
  m.find? (fun e => e.ofPair o c && e.isStanding)

/-- The RESERVED entry of an (owner, channel), if there is one. -/
def reservedOf (m : List Entry) (o : StationNo) (c : ChannelNo) : Option Entry :=
  m.find? (fun e => e.ofPair o c && !e.isStanding)

/-- An entry as it is created: its overlap mark is set at the end of the taking (R8). -/
def newEntry (o : StationNo) (c : ChannelNo) (kind : EntryKind) (sp : Span) (w : Nat) : Entry :=
  { owner := o, channel := c, kind := kind, span := sp, weight := w, overlap := false }

/-! ### Load, fit and overlap marks -/

/-- The weight of a pair in a slice: the weight of its entry that covers the slice, the larger if both do, and 0 if
neither does (R6). -/
def pairWeight (m : List Entry) (k : Slice) (o : StationNo) (c : ChannelNo) : Nat :=
  m.foldl (fun w e => if e.ofPair o c && e.span.covers k then max w e.weight else w) 0

/-- The distinct (owner, channel) pairs of a map. -/
def distinctPairs : List Entry → List (StationNo × ChannelNo)
  | [] => []
  | e :: m =>
    if (distinctPairs m).contains (e.owner, e.channel) then distinctPairs m
    else (e.owner, e.channel) :: distinctPairs m

/-- The load of a slice: the sum over every distinct (owner, channel) of its weight there (R6). -/
def load (m : List Entry) (k : Slice) : Nat := ((distinctPairs m).map (fun p => pairWeight m k p.1 p.2)).sum

/-- Whether a slice has room for a candidate of weight `w`, the entries of its own pair left out (R7). -/
def roomAt (m : List Entry) (budget : Nat) (o : StationNo) (c : ChannelNo) (w : Nat) (k : Slice) : Bool :=
  decide (load (withoutPair o c m) k + w ≤ budget)

/-- The fit test of R7. -/
def fits (m : List Entry) (budget : Nat) (o : StationNo) (c : ChannelNo) (w : Nat) (sp : Span) : Bool :=
  sp.slices.all (roomAt m budget o c w)

/-- Whether an entry covers a slice whose load is above the budget (R8). -/
def overBudget (budget : Nat) (m : List Entry) (e : Entry) : Bool :=
  e.span.slices.any (fun k => decide (budget < load m k))

/-- The map with every overlap mark as R8 gives it. -/
def refreshMarks (budget : Nat) (m : List Entry) : List Entry :=
  m.map (fun e => { e with overlap := overBudget budget m e })

/-! ### Aging -/

/-- An age goes up by 1, to at most 255 (R19). -/
def EntryKind.age : EntryKind → EntryKind
  | .standing => .standing
  | .reserved a => .reserved (min 255 (a + 1))

/-- Every RESERVED entry ages at a mark (R19). -/
def ageEntries (m : List Entry) : List Entry := m.map (fun e => { e with kind := e.kind.age })

/-- Whether an entry is RESERVED with an age of 2 or more (R12). -/
def Entry.isAged (e : Entry) : Bool :=
  match e.kind with
  | .standing => false
  | .reserved a => decide (2 ≤ a)

/-- Whether an owner's reservation of a channel still stands at age 0 or 1 (R64). -/
def youngReservation (m : List Entry) (o : StationNo) (c : ChannelNo) : Bool :=
  m.any (fun e => e.ofPair o c && !e.isStanding && !e.isAged)

/-! ### The steps of a peer report (R10 to R15) -/

/-- Step two: the sender's RESERVED entries of age 2 or more go (R12). -/
def removeAged (p : StationNo) (m : List Entry) : List Entry :=
  m.filter (fun e => !(decide (e.owner = p) && e.isAged))

/-- The item of a kind for a channel, if the report has one. -/
def itemFor (kind : ItemKind) (c : ChannelNo) (items : List Item) : Option Item :=
  items.find? (fun it => decide (it.kind = kind ∧ it.channel = c))

/-- Step three for one channel: its STANDING item is recorded, or the entry goes if the report has none (R13). -/
def recordStanding (p : StationNo) (items : List Item) (m : List Entry) (c : ChannelNo) : List Entry :=
  match itemFor .standing c items with
  | some it => mapInsert (newEntry p c .standing it.span it.weight) m
  | none => removeStanding p c m

/-- Step three: the STANDING items, channel by channel (R13). -/
def recordStandingItems (p : StationNo) (items : List Item) (m : List Entry) : List Entry :=
  channelOrder.foldl (recordStanding p items) m

/-- The CLAIM items of a report in channel order (R14). -/
def claimItems (items : List Item) : List Item := channelOrder.filterMap (fun c => itemFor .claim c items)

/-- Step four: the CLAIM items are judged all or none (R14, R63, R64). The answer is the map with their reservations,
or none if the report is rejected. -/
def judgeClaims (budget : Nat) (p : StationNo) : List Item → List Entry → Option (List Entry)
  | [], m => some m
  | it :: items, m =>
    if !youngReservation m p it.channel && fits m budget p it.channel it.weight it.span then
      judgeClaims budget p items (mapInsert (newEntry p it.channel (.reserved 0) it.span it.weight) m)
    else none

end Sys2Proof.Machine
end

