-- ==== Sys2Proof/Machine/Timing.lean ====
section
/-! DEFINITION. Time. Every measure counts CLK cycles. Time passes in three ways only: by the tick of an empty command
queue (Step.lean), by the time an edge of the line carries, and by a command whose row says that a measure reaches a
value, which lets the time pass that is still missing to that moment (log 2). -/

namespace Sys2Proof.Machine

/-- A bit time on the span line: 8 µs, 128 CLK cycles (R139). -/
def bitTime : Nat := 128

/-- The slice length for a slice code: 1 ms, 2.5 ms, 10 ms or 20 ms (R126). -/
def sliceLength : Fin 4 → Nat
  | 0 => 16000
  | 1 => 40000
  | 2 => 160000
  | 3 => 320000

/-- One own cycle length: 64 slices, which is 8000, 20000, 80000 or 160000 bit times (R142). -/
def ownCycleLength (cfg : Configuration) : Nat := 64 * sliceLength cfg.sliceCode

/-- A low is taken as a mark when it has lasted 12 bit times (R141). -/
def markRecognition : Nat := 12 * bitTime

/-- A driven mark is a low of 16 bit times (R142). -/
def markLength : Nat := 16 * bitTime

/-- The high of 32 bit times that must come before a mark (R141, R142). -/
def highBeforeMark : Nat := 32 * bitTime

/-- A low of 64 bit times is a line fault (R154). -/
def faultTime : Nat := 64 * bitTime

/-- HCS must have been high for 2 µs before a frame begins (R176). -/
def frameGap : Nat := 32

/-- The cycle timer at the beginning of talk slot `k`: a lead-in of 32 bit times, then 256 for each slot before (R145). -/
def slotStart (k : Nat) : Nat := (32 + 256 * k) * bitTime

/-- The cycle timer at the settle point, 4128 bit times after the mark's falling edge (R145). -/
def settleTime : Nat := 4128 * bitTime

/-- The talk slot of a station in a cycle with a given sequence: (own number − q) mod 16 (R145). -/
def ownSlot (cfg : Configuration) (q : Sequence) : Fin 16 := Fin.ofNat 16 (cfg.station.val + 256 - q.toNat)

/-- A running measure goes on; a stopped one stays stopped. -/
def runOn (n : Nat) (m : Option Nat) : Option Nat := m.map (· + n)

/-- The mark driver after `n` more CLK cycles: a drive ends when it has lasted 16 bit times (R142). -/
def MarkDriver.advance (n : Nat) : MarkDriver → MarkDriver
  | .driving e => if e + n < markLength then .driving (e + n) else .idle
  | d => d

/-! ### Sampling (R139) -/

/-- The longest report on the line, one of eight items (R140). -/
def longestReport : Nat := 219

/-- A reading begins with a bit: its sample comes in the middle of the bit time (R139). -/
def Sampler.start : Sampler := { untilNext := bitTime / 2, levels := [] }

/-- `n` CLK cycles pass with the line at one level. Each sample that comes in them reads it, one bit time after the
sample before (R139). A sample that coincides with an edge reads the level before the edge, since the time that an edge
carries passes before the level changes (log 12). No report has a bit beyond the 219th. -/
def Sampler.pass (n : Nat) (level : Bool) (p : Sampler) : Sampler :=
  if n < p.untilNext then { p with untilNext := p.untilNext - n }
  else
    let samples := (n - p.untilNext) / bitTime + 1
    { untilNext := p.untilNext + samples * bitTime - n
      levels := p.levels ++ List.replicate (min samples (longestReport - p.levels.length)) level }

/-- A falling edge re-times the reading: it is taken as a bit boundary, so the next sample comes half a bit time later
(R139). -/
def Sampler.retime (p : Sampler) : Sampler := { p with untilNext := bitTime / 2 }

/-- The first `count` levels, those not read yet at the line's present level: what is read if the level stays. -/
def Sampler.ahead (count : Nat) (level : Bool) (p : Sampler) : List Bool :=
  p.levels ++ List.replicate (count - p.levels.length) level

/-- The CLK cycles to the sample of bit `n`, the start bit being bit 0; none if it has been taken. -/
def Sampler.toSample (n : Nat) (p : Sampler) : Nat := p.untilNext + n * bitTime - p.levels.length * bitTime

/-- The CLK cycles to the end of the last of `length` bits, half a bit time after its sample; none if it has passed. -/
def Sampler.toEnd (length : Nat) (p : Sampler) : Nat :=
  p.untilNext + length * bitTime - (bitTime / 2 + p.levels.length * bitTime)

/-- The bit whose bit time runs now: the one to be sampled next, or the one sampled last in the second half of its bit
time. -/
def Sampler.currentBit (p : Sampler) : Nat :=
  if p.untilNext ≤ bitTime / 2 then p.levels.length else p.levels.length - 1

/-- The transmitter's read-back goes on while it sends (R148). -/
def Transmitter.advance (n : Nat) (level : Bool) : Transmitter → Transmitter
  | .sending p => .sending (p.pass n level)
  | t => t

/-- A reading whose first sample is high began with no start bit, and is none (R147). -/
def Receiver.check (slot : Fin 16) (p : Sampler) : Receiver :=
  if p.levels.head? = some true then .idle else .receiving slot p

/-- The reception goes on (R139, R147). -/
def Receiver.advance (n : Nat) (level : Bool) : Receiver → Receiver
  | .receiving slot p => Receiver.check slot (p.pass n level)
  | .idle => .idle

/-! ### The passing of time -/

/-- The Line Interface's measures and readings after `n` more CLK cycles with the line as it is (R138, R139). Once time
has passed, a founding falls together with no mark before it (R155). -/
def LineInterface.advance (n : Nat) (l : LineInterface) : LineInterface :=
  { l with
    cycleTimer := runOn n l.cycleTimer
    transmitter := l.transmitter.advance n (!l.lineLow)
    receiver := l.receiver.advance n (!l.lineLow)
    foundingWait := runOn n l.foundingWait
    foundingDue := l.foundingDue && decide (n = 0)
    clearMeasure := runOn n l.clearMeasure
    faultMeasure := runOn n l.faultMeasure
    highTime := if l.lineLow then l.highTime else l.highTime + n
    lowTime := if l.lineLow then l.lowTime + n else l.lowTime
    markDriver := l.markDriver.advance n }

/-! ### HSCK (R176, R177) -/

/-- The bits clocked in so far in the frame in progress. -/
def HostPort.clocked (p : HostPort) : List Bool := p.received.flatMap byteBits ++ p.partialBits

/-- The port with these bits clocked in in its frame: the complete bytes, the bits of the byte that is not complete, the
positions, and what HSDO has shown in as many HSCK periods (R176, R177). -/
def HostPort.gather (bits : List Bool) (p : HostPort) : HostPort :=
  { p with
    received := completeBytes bits, partialBits := incompleteByte bits, bitPos := bits.length % 8
    outPos := bits.length / 8, shown := shiftOut p.held bits.length }

/-- An edge of HSCK. In a frame HSDI is sampled at a rising edge, and a falling edge puts the bit of the held response on
HSDO that comes after as many bits as were sampled (R176, R177). With no frame in progress, and while RESET is low, it
moves nothing but HSCK (R176, R189). -/
def HostPort.clockEdge (counting hsdi : Bool) (p : HostPort) : HostPort :=
  if !p.inFrame || !counting then { p with hsck := !p.hsck }
  else if p.hsck then { p with hsck := false, hsdo := p.held.bitAt p.clocked.length }
  else { p.gather (p.clocked ++ [hsdi]) with hsck := true }

/-- The edges of HSCK that come within `n` CLK cycles come, in their order; those left count from then on. -/
def HostPort.runClock (counting : Bool) : List HsckEdge → Nat → HostPort → HostPort
  | [], _, p => { p with toClock := [] }
  | e :: es, n, p =>
    if e.after ≤ n then HostPort.runClock counting es (n - e.after) (p.clockEdge counting e.hsdi)
    else { p with toClock := { e with after := e.after - n } :: es }

/-- More edges of HSCK are to come, after those still to come; one that is due at once comes. -/
def HostPort.feed (counting : Bool) (clock : List HsckEdge) (p : HostPort) : HostPort :=
  HostPort.runClock counting (p.toClock ++ clock) 0 p

/-- The phases in which the time since HCS rose is measured (R176). -/
def HcsPhase.measures : HcsPhase → Bool
  | .high | .early => true
  | .frame | .ignored => false

/-- The Host Port after `n` more CLK cycles: the edges of HSCK that come in them come, and the time since HCS rose goes
on. While RESET is low neither HCS nor HSCK is counted (R189). -/
def HostPort.advance (n : Nat) (counting : Bool) (p : HostPort) : HostPort :=
  HostPort.runClock counting p.toClock n
    (if p.hcs.measures && counting then { p with sinceRise := p.sinceRise + n } else p)

/-- `n` CLK cycles pass. Nothing changes but the measures, the bits read off the line and those that HSCK clocks at the
host port, and a mark drive that has lasted 16 bit times ends. -/
def State.advance (n : Nat) (s : State) : State :=
  { s with line := s.line.advance n, port := s.port.advance n (!s.resetHeld) }

/-- The time passes until a measure that now reads `now` reads `moment`; none if it has been reached. -/
def State.advanceTo (moment now : Nat) (s : State) : State := s.advance (moment - now)

/-- The time passes until the cycle timer reads `moment`; none if it is stopped or has reached it. -/
def State.advanceTimer (moment : Nat) (s : State) : State :=
  match s.line.cycleTimer with
  | none => s
  | some now => s.advanceTo moment now

end Sys2Proof.Machine
end

