-- ==== Sys2Proof/Machine/Ops.lean ====
section
/-! DEFINITION. The operations several commands share: issuing a notice, putting a changed map into the state with all
that follows it, writing a demand, driving the pins, and the clears of the station's transitions. -/

namespace Sys2Proof.Machine

/-! ### Tables -/

/-- A table with one function applied to every place. -/
def mapTable {α β : Type} {n : Nat} (f : α → β) (v : Vector α n) : Vector β n := Vector.ofFn (fun i => f v[i])

/-- The channel's record. -/
def State.channel (s : State) (c : ChannelNo) : ChannelRecord := s.channels[c]

/-- Writes a channel's record. -/
def State.setChannel (c : ChannelNo) (r : ChannelRecord) (s : State) : State :=
  { s with channels := s.channels.set c r }

/-! ### The Notice Queue (chapter 9) -/

/-- The kinds that hold HINT low while they wait (R166, R169). -/
def NoticeKind.urgent : NoticeKind → Bool
  | .yielded .. => true
  | .leaseLapsed => true
  | .silenced => true
  | .lineFault => true
  | _ => false

/-- HINT is low while the fill is at or above the configured threshold, and while an urgent notice waits (R169). With
no configuration there is no threshold (R170). -/
def hintLevel (config : Option Configuration) (queue : List Notice) : Bool :=
  (match config with
   | some cfg => decide (cfg.threshold ≤ queue.length)
   | none => false) || queue.any (fun n => n.kind.urgent)

/-- HINT is brought up to date (R169). -/
def State.refreshHint (s : State) : State :=
  { s with notices := { s.notices with hintLow := hintLevel s.config s.notices.queue } }

/-- A notice with the present cycle sequence joins the tail of the queue (R164, R165); on a full queue it is discarded
and the lost count rises (R168). HINT follows. -/
def State.issue (kind : NoticeKind) (s : State) : State :=
  State.refreshHint
    (if s.notices.queue.length < 32 then
      { s with notices := { s.notices with queue := s.notices.queue ++ [⟨kind, s.line.sequence⟩] } }
    else
      { s with notices := { s.notices with lost := min 255 (s.notices.lost + 1) } })

/-! ### The pins (chapter 6) -/

/-- The level of each pin: high while the channel's active span covers the counter's slice (R131). -/
def pinLevels (active : PerChannel (Option Span)) (counter : Nat) : PerChannel Bool :=
  mapTable (fun (sp : Option Span) =>
    match sp with
    | some sp => sp.covers (Fin.ofNat 64 counter)
    | none => false) active

/-- The pins are brought up to date (R131). -/
def OutputSequencer.drive (o : OutputSequencer) : OutputSequencer := { o with pins := pinLevels o.active o.counter }

/-! ### The span map in the state -/

/-- The held length: 0 for a channel that holds no span (R50). -/
def heldLength (held : Option Span) : Nat :=
  match held with
  | some sp => sp.length
  | none => 0

/-- The span of a channel's own STANDING entry (R47). -/
def ownSpan (cfg : Configuration) (m : List Entry) (c : ChannelNo) : Option Span :=
  (standingOf m cfg.station c).map Entry.span

/-- A channel record whose held span and deficit follow a new held span (R47, R50). -/
def ChannelRecord.hold (held : Option Span) (r : ChannelRecord) : ChannelRecord :=
  { r with held := held, deficit := r.demand - heldLength held }

/-- Puts a changed map into the state, with all that follows it in the same taking: the overlap marks (R8), every
channel's held span (R47) and deficit (R50), and the staged set (R26, R129). -/
def State.setMap (cfg : Configuration) (m : List Entry) (s : State) : State :=
  { s with
    map := refreshMarks cfg.budget m
    channels := Vector.ofFn (fun (c : ChannelNo) => s.channels[c].hold (ownSpan cfg m c))
    output := { s.output with staged := Vector.ofFn (fun c => ownSpan cfg m c) } }

/-! ### Demand (R51, R158) -/

/-- A channel record that takes a written demand (R51). A write of the same value leaves it as it is. -/
def ChannelRecord.takeDemand (v : Nat) (r : ChannelRecord) : ChannelRecord :=
  if v = r.demand then r
  else
    let r := { r with demand := v, deficit := v - heldLength r.held }
    match r.state with
    | .idle => if v = 0 then r else { r with state := .seeking }
    | .seeking | .blocked | .backoff => if v = 0 then { r with state := .idle, streak := 0, wait := 0 } else r
    | .held | .claimed => r

/-- Writes a channel's demand register and, in the same taking, its copy in the channel record (R158). -/
def State.writeDemand (c : ChannelNo) (v : Nat) (s : State) : State :=
  { s with demand := s.demand.set c v, channels := s.channels.set c (s.channels[c].takeDemand v) }

/-! ### The station state -/

/-- The states in which the cycle events are taken (R105). -/
def StationState.onLine : StationState → Bool
  | .listening | .member | .departing | .silenced => true
  | .dormant | .ready | .lineFault => false

/-- The states in which the station sends a report (R29). -/
def StationState.sends : StationState → Bool
  | .member | .departing | .silenced => true
  | .dormant | .ready | .listening | .lineFault => false

/-- The mark driver is on (R105). -/
def State.drivesMarks (s : State) : Bool :=
  s.member.state.sends || (decide (s.member.state = .listening) && s.member.founding)

/-! ### Clears -/

/-- A channel record as R78 leaves it: no span, SEEKING or IDLE by its demand, no streak, no wait, no claim. -/
def ChannelRecord.clear (r : ChannelRecord) : ChannelRecord :=
  { r with
    state := if r.demand = 0 then .idle else .seeking
    held := none, deficit := r.demand, streak := 0, wait := 0, claimed := false }

/-- The Claim Engine's side of the handshake is cleared (R78): any record is withdrawn with no notice and every
channel record is set by its demand. -/
def State.clearHandshake (s : State) : State :=
  { s with claim := none, channels := mapTable ChannelRecord.clear s.channels }

/-- Every own entry of both kinds is removed and the handshake cleared: entry to SILENCED (R112), the first departure
report (R116) and the early clear of R118. The staged set empties with the entries (R26). -/
def State.clearOwn (cfg : Configuration) (s : State) : State :=
  (s.setMap cfg (removeOwner cfg.station s.map)).clearHandshake

/-- The Line Interface switched off: its record as a restart leaves it, but for the cycle sequence, which is kept
(R138). The level of the line and its times go on following the line, and a low that could be a mark and has not been
taken as one still may be (R155); one that has been taken may not (DESIGN CHOICE, log 23). -/
def LineInterface.switchOff (l : LineInterface) : LineInterface :=
  { LineInterface.reset with
    sequence := l.sequence, lineLow := l.lineLow, highTime := l.highTime, lowTime := l.lowTime,
    lowMayBeMark := l.lowMayBeMark }

/-- An entry to READY, by completion of departure or by DEPART (R116, R117): map and roster emptied, the counts and
flags of the Membership Controller cleared, the Line Interface switched off, both sets emptied and the pins low (R134),
and DEPARTED issued. Channel states, demands, lease count, notices and configuration are kept. -/
def State.enterReady (cfg : Configuration) (s : State) : State :=
  let s := s.setMap cfg []
  State.issue .departed
    { s with
      roster := emptyRoster
      member := { Membership.clear .ready with newMember := s.member.newMember }
      line := s.line.switchOff
      output := .clear }

end Sys2Proof.Machine
end

