-- ==== Sys2Proof/Machine/Claims.lean ====
section
/-! DEFINITION. The Claim Engine's work on the own channels: the yield rule (chapter 4), releases and shortenings
(R16), the placement search and the outstanding-claim record (R53 to R60), and the outcomes of a claim (R61, R66 to
R72). Judging a peer's claims is judgeClaims of Machine/SpanMap.lean. -/

namespace Sys2Proof.Machine

/-! ### The yield rule (R85 to R91) -/

/-- A key's place among keys: by owner, then channel (R86). -/
def keyRank (o : StationNo) (c : ChannelNo) : Nat := o.val * 4 + c.val

/-- The lowest key among some entries, or none if there are none (R87). -/
def lowestKey : List Entry → Option (StationNo × ChannelNo)
  | [] => none
  | e :: m =>
    match lowestKey m with
    | none => some (e.owner, e.channel)
    | some k => if keyRank e.owner e.channel ≤ keyRank k.1 k.2 then some (e.owner, e.channel) else some k

/-- Whether an entry wins a slice of `e`: it is STANDING, of another owner, of a lower key, and covers a slice `e`
covers whose load is above the budget (R86). -/
def winsOver (budget : Nat) (m : List Entry) (e f : Entry) : Bool :=
  f.isStanding && decide (f.owner ≠ e.owner) && decide (keyRank f.owner f.channel < keyRank e.owner e.channel)
    && e.span.slices.any (fun k => decide (budget < load m k) && f.span.covers k)

/-- The winning key of an examined entry, or none if it is kept (R86, R87, R90). -/
def winningKey (budget : Nat) (m : List Entry) (e : Entry) : Option (StationNo × ChannelNo) :=
  lowestKey (m.filter (winsOver budget m e))

/-- Takes a channel out of the outstanding-claim record, which is removed with its last claim (R89). -/
def dropClaim (c : ChannelNo) (rec : Option ClaimRecord) : Option ClaimRecord :=
  match rec with
  | none => none
  | some r =>
    let claims := r.claims.filter (fun p => decide (p.1 ≠ c))
    if claims.isEmpty then none else some { r with claims := claims }

/-- The yield of a channel's own STANDING entry to a winning key: the entry goes, and with it the reservation of a
claim that is out; the channel waits two marks in BACKOFF; YIELDED is issued (R88, R89, R91). -/
def yieldEntry (cfg : Configuration) (c : ChannelNo) (sp : Span) (winner : StationNo × ChannelNo) (s : State) : State :=
  let out := decide ((s.channel c).state = .claimed)
  let m := removeStanding cfg.station c s.map
  let s := s.setMap cfg (if out then removeReserved cfg.station c m else m)
  let s := { s with claim := if out then dropClaim c s.claim else s.claim }
  (s.setChannel c { s.channel c with state := .backoff, wait := 2, claimed := false }).issue
    (.yielded c sp winner.1 winner.2)

/-- One examined channel: yielded if some entry wins over its own, kept otherwise (R86, R90). -/
def yieldChannel (cfg : Configuration) (s : State) (c : ChannelNo) : State :=
  match standingOf s.map cfg.station c with
  | none => s
  | some e =>
    match winningKey cfg.budget s.map e with
    | none => s
    | some winner => yieldEntry cfg c e.span winner s

/-- The channels the yield rule examines: those whose own STANDING entry carries the overlap mark when the
own-slot-start is taken, and whose demand is not 0 (R85). -/
def examined (cfg : Configuration) (s : State) : List ChannelNo :=
  channelOrder.filter (fun c =>
    ((standingOf s.map cfg.station c).any (fun e => e.overlap)) && decide ((s.channel c).demand ≠ 0))

/-- Step 1 of the composition (R30): the yields, in channel order. -/
def applyYields (cfg : Configuration) (s : State) : State := (examined cfg s).foldl (yieldChannel cfg) s

/-! ### Releases and shortenings (R16) -/

/-- Step 2 of the composition for one channel: at demand 0 the own STANDING entry goes, and a HELD channel to IDLE (a
CLAIMED one keeps its claim, R77); at a demand below the held length the entry is shortened. -/
def releaseChannel (cfg : Configuration) (s : State) (c : ChannelNo) : State :=
  match standingOf s.map cfg.station c with
  | none => s
  | some e =>
    let r := s.channel c
    if r.demand = 0 then
      let s := s.setMap cfg (removeStanding cfg.station c s.map)
      if r.state = .claimed then s
      else s.setChannel c { s.channel c with state := .idle, streak := 0, wait := 0 }
    else if r.demand < e.span.length then
      s.setMap cfg (mapInsert { e with span := { e.span with length := r.demand } } s.map)
    else s

/-- Step 2 of the composition, in channel order (R16). -/
def applyReleases (cfg : Configuration) (s : State) : State := channelOrder.foldl (releaseChannel cfg) s

/-! ### Placement (R53 to R58) -/

/-- The preferred start of a station's channel (R54). -/
def preferredStart (o : StationNo) (c : ChannelNo) : Slice := Fin.ofNat 64 (4 * o.val + 16 * c.val)

/-- The candidate starts in the order of R54: the held start, if there is one, then the ring from the preferred start,
none twice. -/
def candidateStarts (held : Option Span) (p : Slice) : List Slice :=
  let ring := (List.range 64).map (sliceAt p)
  match held with
  | none => ring
  | some sp => sp.start :: ring.filter (fun k => decide (k ≠ sp.start))

/-- The first pass: the first candidate at which the whole demand fits (R55). -/
def fullPlacement (m : List Entry) (budget : Nat) (o : StationNo) (c : ChannelNo) (w demand : Nat)
    (starts : List Slice) : Option Span :=
  (starts.map (fun k => Span.mk k demand)).find? (fits m budget o c w)

/-- How many slices in a row, at most `n`, have room from the `i`th after `start` on. -/
def runLength (room : Slice → Bool) (start : Slice) : Nat → Nat → Nat
  | _, 0 => 0
  | i, n + 1 => if room (sliceAt start i) then runLength room start (i + 1) n + 1 else 0

/-- The greatest length from 1 up to the demand for which the span at a start passes the fit test, or 0 (R56). -/
def longestFit (m : List Entry) (budget : Nat) (o : StationNo) (c : ChannelNo) (w demand : Nat) (start : Slice) : Nat :=
  runLength (roomAt m budget o c w) start 0 demand

/-- The best of some candidates: the greatest length, and the first candidate that has it (R56). -/
def bestOf (longest : Slice → Nat) : List Slice → Option Span → Option Span
  | [], best => best
  | k :: starts, best =>
    bestOf longest starts
      (match best with
       | none => some ⟨k, longest k⟩
       | some b => if b.length < longest k then some ⟨k, longest k⟩ else some b)

/-- Whether a best length is accepted: at least the floor for a channel that holds no span, and longer than the held
span for one that does (R56). -/
def acceptable (held : Option Span) (floor : Nat) (best : Span) : Bool :=
  match held with
  | none => decide (floor ≤ best.length)
  | some sp => decide (sp.length < best.length)

/-- The search for one channel: the full demand, or else the longest acceptable span (R54 to R56). -/
def search (cfg : Configuration) (m : List Entry) (c : ChannelNo) (r : ChannelRecord) : Option Span :=
  let w := cfg.channels[c].weight
  let starts := candidateStarts r.held (preferredStart cfg.station c)
  match fullPlacement m cfg.budget cfg.station c w r.demand starts with
  | some sp => some sp
  | none =>
    (bestOf (longestFit m cfg.budget cfg.station c w r.demand) starts none).filter
      (acceptable r.held cfg.channels[c].floor)

/-- Whether a channel takes part in a placement search (R53). -/
def takesPart (r : ChannelRecord) : Bool :=
  match r.state with
  | .seeking | .blocked => true
  | .held => decide (0 < r.deficit ∧ r.wait = 0)
  | .idle | .claimed | .backoff => false

/-- An accepted placement: the own RESERVED entry is created at age 0 and the channel goes to CLAIMED (R57). -/
def placeClaim (cfg : Configuration) (c : ChannelNo) (sp : Span) (s : State) : State :=
  let s := s.setMap cfg (mapInsert (newEntry cfg.station c (.reserved 0) sp cfg.channels[c].weight) s.map)
  s.setChannel c { s.channel c with state := .claimed, claimed := true }

/-- No room for a channel: a SEEKING one goes to BLOCKED with NO ROOM, any other stays (R58). -/
def noRoom (c : ChannelNo) (s : State) : State :=
  if (s.channel c).state = .seeking then
    (s.setChannel c { s.channel c with state := .blocked }).issue (.noRoom c)
  else s

/-- The search for one channel, with the claims placed before it (R53). -/
def placeChannel (cfg : Configuration) (acc : State × List (ChannelNo × Span)) (c : ChannelNo) :
    State × List (ChannelNo × Span) :=
  let (s, claims) := acc
  if takesPart (s.channel c) then
    match search cfg s.map c (s.channel c) with
    | some sp => (placeClaim cfg c sp s, claims ++ [(c, sp)])
    | none => (noRoom c s, claims)
  else acc

/-- Step 3 of the composition: with no outstanding-claim record the taking channels are searched in channel order, and
the record is made from the claims placed, its witnesses the LIVE rows (R53, R59, R60). The answer carries the claims
placed, which become the report's CLAIM items. -/
def applyPlacement (cfg : Configuration) (s : State) : State × List (ChannelNo × Span) :=
  match s.claim with
  | some _ => (s, [])
  | none =>
    let (s, claims) := channelOrder.foldl (placeChannel cfg) (s, [])
    if claims.isEmpty then (s, [])
    else
      ({ s with claim := some { claims := claims, witnesses := liveSet s.roster, echo := .pending, stage := .sent } },
        claims)

/-! ### The outcomes of a claim (R61, R66 to R72, R79) -/

/-- A withdrawal: the reservation goes with no notice. A channel that holds a span goes to HELD; one that holds none to
IDLE, its streak and wait 0, or to SEEKING if its demand is above 0, which occurs in DEPARTING only (R69, R79). -/
def withdrawClaim (cfg : Configuration) (c : ChannelNo) (s : State) : State :=
  let s := s.setMap cfg (removeReserved cfg.station c s.map)
  let r := { s.channel c with claimed := false }
  s.setChannel c
    (match r.held with
     | some _ => { r with state := .held }
     | none => if r.demand = 0 then { r with state := .idle, streak := 0, wait := 0 } else { r with state := .seeking })

/-- A grant: the reservation becomes the STANDING entry, the channel goes to HELD with streak and wait 0, and GRANTED is
issued, its short flag set when the granted length is below the demand (R18, R70, R72). -/
def grantClaim (cfg : Configuration) (c : ChannelNo) (sp : Span) (s : State) : State :=
  let s := s.setMap cfg
    (mapInsert (newEntry cfg.station c .standing sp cfg.channels[c].weight) (removeReserved cfg.station c s.map))
  (s.setChannel c { s.channel c with state := .held, streak := 0, wait := 0, claimed := false }).issue
    (.granted c sp (decide (sp.length < (s.channel c).demand)))

/-- A refusal: the reservation goes, the streak rises and sets the wait, the channel goes to HELD if it holds a span and
to BACKOFF if not, and REFUSED is issued (R71, R72). -/
def refuseClaim (cfg : Configuration) (cause : RefusalCause) (c : ChannelNo) (sp : Span) (s : State) : State :=
  let s := s.setMap cfg (removeReserved cfg.station c s.map)
  let r := s.channel c
  let streak := min 255 (r.streak + 1)
  (s.setChannel c
    { r with
      state := (if r.held.isSome then .held else .backoff)
      streak := streak, wait := min streak 7, claimed := false }).issue (.refused c sp cause)

/-- The verdict on the claims that are not withdrawn. -/
inductive Verdict where
  | grant
  | refuse (cause : RefusalCause)
  deriving DecidableEq, Repr

/-- One claim of the record is decided: withdrawn at demand 0, else by the verdict (R61, R66). A claim whose channel's
outstanding claim flag is clear is none of the record's. -/
def decideClaim (cfg : Configuration) (v : Verdict) (s : State) (claim : ChannelNo × Span) : State :=
  let r := s.channel claim.1
  if !r.claimed then s
  else if r.demand = 0 then withdrawClaim cfg claim.1 s
  else
    match v with
    | .grant => grantClaim cfg claim.1 claim.2 s
    | .refuse cause => refuseClaim cfg cause claim.1 claim.2 s

/-- The record's claims are decided in channel order and the record is removed (R66). -/
def decideClaims (cfg : Configuration) (v : Verdict) (rec : ClaimRecord) (s : State) : State :=
  { rec.claims.foldl (decideClaim cfg v) s with claim := none }

/-- The record is withdrawn with no notice (R79). -/
def withdrawRecord (cfg : Configuration) (rec : ClaimRecord) (s : State) : State :=
  { rec.claims.foldl (fun s claim => withdrawClaim cfg claim.1 s) s with claim := none }

/-- Whether a row stands in a grant's way: a witness not heard in the decision cycle, or heard without the own ack bit
(R67, R68). -/
def offends (rec : ClaimRecord) (roster : PerStation Row) (w : StationNo) : Bool :=
  rec.witnesses[w] && !(roster[w].heard && roster[w].ackForMe)

/-- The verdict at the settle point of the decision cycle: granted when no witness offends and the claim report's echo
was a success; else refused for the lowest-numbered offending witness (R67, R68). A record whose echo is not a success
here was given no own-slot-end, which the part's own timing does not allow: its claims are refused for their echo
(log 8). -/
def verdict (rec : ClaimRecord) (roster : PerStation Row) : Verdict :=
  match stationOrder.find? (offends rec roster) with
  | some w => if roster[w].heard then .refuse (.notAcked w) else .refuse (.peerUnheard w)
  | none => if rec.echo = .success then .grant else .refuse .echo

end Sys2Proof.Machine
end

