-- ==== Sys2Proof/Machine/Takings.lean ====
section
/-! DEFINITION. The takings of the cycle: the mark, own-slot-start, own-slot-end, the arrival of a report and the
settle point, each as the blocks take it. Several rows of the command table name one outcome of such a taking (JOINED,
LEASE_LAPSED, SILENCED, PEER_LOST and others), so the takings stand here and the commands are in
Machine/CycleEvents.lean. -/

namespace Sys2Proof.Machine

/-! ### The mark (R143) -/

/-- The mark that the state of the line makes ready to be taken: the time since its falling edge, and whether this
station drives it. A driven mark counts from the start of the drive, or from the line's falling edge where that came
earlier (R142). A recognised mark is a low that may be one (R141). None while the window is open (R141, R155).
DESIGN CHOICE (log 22): the length of a low that began before JOIN counts from JOIN (R155), and where it is taken as a
mark, the moment of JOIN stands for its falling edge as the time origin of the cycle too. -/
def markOrigin (s : State) : Option (Nat × Bool) :=
  if !s.member.state.onLine || s.line.windowOpen then none
  else
    match s.line.markDriver with
    | .driving e => some (max e (s.line.faultMeasure.getD 0), true)
    | .idle | .waiting =>
      if s.line.lineLow && s.line.lowMayBeMark then s.line.faultMeasure.map (fun t => (t, false)) else none

/-- Whether the founding wait has reached two own cycle lengths (R109). -/
def LineInterface.foundingReached (cfg : Configuration) (l : LineInterface) : Bool :=
  l.foundingWait.any (fun w => decide (2 * ownCycleLength cfg ≤ w))

/-- The Line Interface's part: the timer restarts from the falling edge, the window opens, the sequence goes up by 1
modulo 256, lowest heard is none, and a recognised mark restarts the founding wait in LISTENING (R143); where the wait
had reached its end, the founding falls together with the mark (R155). A station that waits to drive does not (R142),
and a new own slot is to come. A low is taken as a mark once: should it last through a restart and a JOIN, it is not
taken again (DESIGN CHOICE, log 23). -/
def LineInterface.takeMark (cfg : Configuration) (listening driven : Bool) (edge : Nat) (l : LineInterface) :
    LineInterface :=
  { l with
    cycleTimer := some edge
    windowOpen := true
    sequence := l.sequence + 1
    lowestHeard := none
    foundingWait := if listening && !driven then some 0 else l.foundingWait
    foundingDue := listening && !driven && l.foundingReached cfg
    lowMayBeMark := false
    markDriver := (match l.markDriver with | .waiting => .idle | d => d)
    slotPhase := .before
    ownReport := none
    reportSent := false
    heldOff := false
    slotRead := none }

/-- The Output Sequencer's part: counter 0 and running, the staged set committed, the pins set (R126, R130). -/
def OutputSequencer.commit (o : OutputSequencer) : OutputSequencer :=
  ({ o with counter := 0, running := true, active := o.staged } : OutputSequencer).drive

/-- The Roster's part for one row (R100). -/
def Row.takeMark (r : Row) : Row :=
  { r with sentAck := r.accept, heard := false, accept := false, ackForMe := false }

/-- The wait countdown of one channel: a BACKOFF channel whose count reaches 0 goes to SEEKING (R75). -/
def ChannelRecord.countDown (r : ChannelRecord) : ChannelRecord :=
  if r.wait = 0 then r
  else
    { r with
      wait := r.wait - 1
      state := if r.state = .backoff ∧ r.wait = 1 then .seeking else r.state }

/-- The outstanding-claim record goes from SENT to DUE (R62). -/
def ClaimRecord.takeMark (rec : ClaimRecord) : ClaimRecord := { rec with stage := .due }

/-- Whether the mark to be taken is the (E + 1)th of a LISTENING period (R108). -/
def joinsAtMark (cfg : Configuration) (s : State) : Bool :=
  decide (s.member.state = .listening) && decide (cfg.expiry ≤ s.member.listenCount)

/-- The Membership Controller's part: a LISTENING mark is counted, and the (E + 1)th takes the station to MEMBER, where
the founding wait is no longer measured (R108, R111). -/
def memberMark (cfg : Configuration) (s : State) : State :=
  if joinsAtMark cfg s then
    State.issue .joined
      { s with
        member := { s.member with state := .member, listenCount := 0, founding := false, newMember := true }
        line := { s.line with foundingWait := none, foundingDue := false } }
  else if s.member.state = .listening then
    { s with member := { s.member with listenCount := s.member.listenCount + 1 } }
  else s

/-- Whether the mark to be taken brings the lease count to L (R160). -/
def lapsesAtMark (cfg : Configuration) (s : State) : Bool := decide (s.leaseCount + 1 = cfg.lease)

/-- The Demand and Lease Unit's part: the lease count rises while it is below L, and the lease lapses at L: every demand
is written 0, in channel order, and LEASE LAPSED is issued (R159, R160). -/
def leaseMark (cfg : Configuration) (s : State) : State :=
  if s.leaseCount < cfg.lease then
    let counted := { s with leaseCount := s.leaseCount + 1 }
    if lapsesAtMark cfg s then
      (channelOrder.foldl (fun s c => s.writeDemand c 0) counted).issue .leaseLapsed
    else counted
  else s

/-- One more of the orders the manual leaves open has been chosen. -/
def State.countChoice (s : State) : State := { s with choices := s.choices + 1 }

/-- A mark is taken by every block (R143). `edge` is the time since its falling edge at the taking. JOINED and LEASE
LAPSED of one mark stand in either order (R160). -/
def markTaken (cfg : Configuration) (driven : Bool) (edge : Nat) (s : State) : State :=
  let s :=
    { s with
      line := s.line.takeMark cfg (decide (s.member.state = .listening)) driven edge
      output := s.output.commit
      map := ageEntries s.map
      roster := mapTable Row.takeMark s.roster
      channels := mapTable ChannelRecord.countDown s.channels
      claim := s.claim.map ClaimRecord.takeMark }
  (if Config.lapseBeforeJoin s.choices then memberMark cfg (leaseMark cfg s)
    else leaseMark cfg (memberMark cfg s)).countChoice

/-- The mark that is ready is taken 12 bit times after its falling edge, once that time has passed (R141). -/
def takeMark (cfg : Configuration) (s : State) : State :=
  match markOrigin s with
  | none => s
  | some (since, driven) =>
    markTaken cfg driven (max since markRecognition) (s.advanceTo markRecognition since)

/-! ### Own-slot-start (R30) -/

/-- The items of a member report: for each channel in order its STANDING item, then its CLAIM item if one was placed in
this composition (R31, R32). -/
def reportItems (cfg : Configuration) (m : List Entry) (claims : List (ChannelNo × Span)) : List Item :=
  channelOrder.flatMap (fun c =>
    ((ownSpan cfg m c).map (fun sp => Item.mk .standing c sp cfg.channels[c].weight)).toList
      ++ (claims.filter (fun p => decide (p.1 = c))).map (fun p => Item.mk .claim c p.2 cfg.channels[c].weight))

/-- The ack set: the rows whose sent-ack flag is set (R33). -/
def ackSet (roster : PerStation Row) : StationSet := mapTable Row.sentAck roster

/-- A report with the station's own number and sequence and the composed ack set (R30). -/
def ownReport (cfg : Configuration) (s : State) (n d : Bool) (items : List Item) : Report :=
  { sender := cfg.station, sequence := s.line.sequence, newMember := n, departing := d, ackSet := ackSet s.roster,
    items := items }

/-- The composed report waits for the transmitter. -/
def State.load (r : Report) (s : State) : State := { s with line := { s.line with ownReport := some r } }

/-- A member report: yields, releases, placement, then the report with the N flag on the first after an entry to MEMBER,
which takes the indication (R30, R34). -/
def composeMember (cfg : Configuration) (s : State) : State :=
  let (s, claims) := applyPlacement cfg (applyReleases cfg (applyYields cfg s))
  let r := ownReport cfg s s.member.newMember false (reportItems cfg s.map claims)
  State.load r { s with member := { s.member with newMember := false } }

/-- A departure report: the first clears every own entry and the handshake (R35, R79, R116). -/
def composeDeparture (cfg : Configuration) (s : State) : State :=
  let s := if s.member.departureCount = 0 then s.clearOwn cfg else s
  let s := { s with member := { s.member with departureCount := min 2 (s.member.departureCount + 1) } }
  s.load (ownReport cfg s false true [])

/-- A silent report: no items, no flags (R36). -/
def composeSilent (cfg : Configuration) (s : State) : State := s.load (ownReport cfg s false false [])

/-- The own report is composed by the station state; in LISTENING none is (R29). -/
def compose (cfg : Configuration) (s : State) : State :=
  match s.member.state with
  | .member => composeMember cfg s
  | .departing => composeDeparture cfg s
  | .silenced => composeSilent cfg s
  | .dormant | .ready | .listening | .lineFault => s

/-- The cycle timer at the beginning of the own slot (R145). -/
def ownSlotTime (cfg : Configuration) (s : State) : Nat := slotStart (ownSlot cfg s.line.sequence).val

/-- Own-slot-start is produced once in a cycle, in the open window (R145). -/
def ownSlotStartDue (s : State) : Bool :=
  s.member.state.onLine && s.line.windowOpen && decide (s.line.slotPhase = .before)

/-- Own-slot-start is taken (R30). -/
def takeOwnSlotStart (cfg : Configuration) (s : State) : State :=
  if ownSlotStartDue s then
    let s := s.advanceTimer (ownSlotTime cfg s)
    compose cfg { s with line := { s.line with slotPhase := .during, transmitter := .idle } }
  else s

/-! ### Own-slot-end (R149) -/

/-- Own-slot-end is produced once in a cycle, after own-slot-start (R145). -/
def ownSlotEndDue (s : State) : Bool := s.member.state.onLine && decide (s.line.slotPhase = .during)

/-- The echo-failure count after an own slot (R150). -/
def nextEchoFailures (ok : Bool) (n : Nat) : Nat := if ok then 0 else min 15 (n + 1)

/-- The claim record takes the echo of its claim report (R61, R62, R79). -/
def claimEcho (cfg : Configuration) (ok : Bool) (s : State) : State :=
  match s.claim with
  | none => s
  | some rec =>
    if rec.stage = .due then s
    else if ok then { s with claim := some { rec with echo := .success } }
    else if s.member.state = .departing then withdrawRecord cfg rec s
    else decideClaims cfg (.refuse .echo) { rec with echo := .failure } s

/-- The Claim Engine's part of a settle point: a DUE record is decided in MEMBER and withdrawn in DEPARTING (R66, R79). -/
def settleClaim (cfg : Configuration) (s : State) : State :=
  match s.claim with
  | none => s
  | some rec =>
    if rec.stage = .sent then s
    else
      match s.member.state with
      | .member => decideClaims cfg (verdict rec s.roster) rec s
      | .departing => withdrawRecord cfg rec s
      | .dormant | .ready | .listening | .silenced | .lineFault => s

/-- Whether an own-slot-end falls at a settle point that has not been taken yet: it is that of slot 15 (R145). -/
def endsAtSettlePoint (cfg : Configuration) (s : State) : Bool :=
  s.line.windowOpen && decide ((ownSlot cfg s.line.sequence).val = 15)

/-- Entry to SILENCED (R112). -/
def enterSilenced (cfg : Configuration) (s : State) : State :=
  let s := s.clearOwn cfg
  State.issue .silenced
    { s with member := { s.member with state := .silenced, newMember := false, restoreCount := 0 } }

/-- Return from SILENCED to MEMBER (R113). -/
def restoreMember (s : State) : State :=
  State.issue .restored { s with member := { s.member with state := .member, newMember := true, restoreCount := 0 } }

/-- Whether the own slot now ending silences a MEMBER: its echo failed and brings the count to E − 1 (R112). -/
def silencesAtEnd (cfg : Configuration) (s : State) : Bool :=
  decide (s.member.state = .member) && !s.line.reportSent
    && decide (cfg.expiry - 1 ≤ nextEchoFailures false s.line.echoFailures)

/-- Whether the own slot now ending clears a DEPARTING station that has composed no departure report (R118). -/
def clearsAtEnd (cfg : Configuration) (s : State) : Bool :=
  decide (s.member.state = .departing) && !s.line.reportSent
    && decide (cfg.expiry - 1 ≤ nextEchoFailures false s.line.echoFailures)
    && decide (s.member.departureCount = 0)

/-- Whether the own slot now ending restores a SILENCED station: a second echo success in a row (R113). -/
def restoresAtEnd (s : State) : Bool :=
  decide (s.member.state = .silenced) && s.line.reportSent && decide (s.member.restoreCount = 1)

/-- The restore count of a SILENCED station that is not restored (R113). -/
def countRestore (ok : Bool) (s : State) : State :=
  if s.member.state = .silenced then
    { s with member := { s.member with restoreCount := if ok then 1 else 0 } }
  else s

/-- The Membership Controller's part of an own-slot-end (R112, R113, R118); `was` is the state as the own slot ends. A
DUE record whose settle point falls together with a silencing own-slot-end is decided before the transition's clears, in
whichever order the two events come (R112). -/
def memberSlotEnd (cfg : Configuration) (was s : State) : State :=
  if silencesAtEnd cfg was then
    enterSilenced cfg (if endsAtSettlePoint cfg was then settleClaim cfg s else s)
  else if clearsAtEnd cfg was then s.clearOwn cfg
  else if restoresAtEnd was then restoreMember s
  else countRestore was.line.reportSent s

/-- The own slot is over: nothing is left to send in this cycle (R148). -/
def LineInterface.endOwnSlot (l : LineInterface) : LineInterface :=
  { l with slotPhase := .after, transmitter := .idle, ownReport := none }

/-- The echo result of an own slot is taken: first by the claim record, then by the count and the Membership Controller
(R149, R61). In LISTENING there is none. -/
def takeEcho (cfg : Configuration) (was s : State) : State :=
  if was.member.state.sends then
    let s := claimEcho cfg was.line.reportSent s
    memberSlotEnd cfg was
      { s with line := { s.line with echoFailures := nextEchoFailures was.line.reportSent s.line.echoFailures } }
  else s

/-- Own-slot-end is taken (R149). -/
def takeOwnSlotEnd (cfg : Configuration) (s : State) : State :=
  if ownSlotEndDue s then
    let s := s.advanceTimer (ownSlotTime cfg s + 256 * bitTime)
    takeEcho cfg s { s with line := s.line.endOwnSlot }
  else s

/-! ### The arrival of a report (R43) -/

/-- The row's status after a valid report (R97). -/
def arrivedStatus (departing : Bool) : RowStatus := if departing then .departing else .live

/-- The row of a sender after a valid report (R97): a LIVE row that stays LIVE keeps its silence count until the settle
point, and an ack set without the own number leaves the ack-for-me flag as it stood. -/
def Row.takeReport (own : StationNo) (r : Report) (row : Row) : Row :=
  { row with
    status := arrivedStatus r.departing
    silence := if row.status = .live ∧ ¬r.departing then row.silence else 0
    heard := true
    ackForMe := row.ackForMe || r.ackSet[own] }

/-- The lowest of the cycle's sequences (R152). -/
def lowerHeard (q : Sequence) (lowest : Option Sequence) : Sequence :=
  match lowest with
  | none => q
  | some l => if q < l then q else l

/-- The Span Map's first three steps (R11, R12, R13). -/
def recordReport (wasLive : Bool) (r : Report) (m : List Entry) : List Entry :=
  recordStandingItems r.sender r.items
    (removeAged r.sender (if r.newMember && wasLive then removeOwner r.sender m else m))

/-- The map after the fourth and fifth steps (R14, R15), and whether the report is accepted (R63, R65). -/
def judgeReport (budget : Nat) (r : Report) (m : List Entry) : List Entry × Bool :=
  let judged := judgeClaims budget r.sender (claimItems r.items) m
  let m := judged.getD m
  (if r.departing then removeOwner r.sender m else m, judged.isSome)

/-- A valid report is taken at the Roster, the Span Map, the Claim Engine and the Line Interface (R43). -/
def takeReport (cfg : Configuration) (r : Report) (s : State) : State :=
  let p := r.sender
  let row := s.roster[p]
  let (m, accepted) := judgeReport cfg.budget r (recordReport (decide (row.status = .live)) r s.map)
  let row' := row.takeReport cfg.station r
  let s := { s with roster := s.roster.set p { row' with accept := row.accept || accepted } }
  let s := if row.status = .absent then s.issue (.peerArrived p) else s
  let s := s.setMap cfg m
  { s with line := { s.line with lowestHeard := some (lowerHeard r.sequence s.line.lowestHeard) } }

/-- An invalid report is counted (R41, R42). -/
def countInvalid (s : State) : State := { s with rxErrors := min 255 (s.rxErrors + 1) }

/-- A report with a right check and the own number restarts a LISTENING station's listen count, and NUMBER IN USE is
issued once per LISTENING period (R41, R110). -/
def ownNumberHeard (cfg : Configuration) (rx : Received) (s : State) : State :=
  if s.member.state = .listening ∧ rx.checkOk = true ∧ rx.report.sender = cfg.station then
    let first := !s.member.numberInUse
    let s := { s with member := { s.member with listenCount := 0, numberInUse := true } }
    if first then s.issue (.numberInUse cfg.station) else s
  else s

/-- A report is taken at its end: validated, and handed on or counted (R40, R41, R43). -/
def arrive (cfg : Configuration) (slot : Fin 16) (rx : Received) (s : State) : State :=
  if valid cfg.station slot rx then takeReport cfg rx.report s else ownNumberHeard cfg rx (countInvalid s)

/-- The reception ends; nothing more is looked for in its slot (R147). -/
def LineInterface.endReception (slot : Fin 16) (l : LineInterface) : LineInterface :=
  { l with receiver := .idle, slotRead := some slot }

/-- A reception that comes to its arrival: its slot, the levels read after the start bit to the last bit of the check
field, what has been received in them, and the CLK cycles to the end of that bit. -/
structure Arrival where
  slot  : Fin 16
  bits  : List Bool
  rx    : Received
  after : Nat
  deriving DecidableEq, Repr

/-- The arrival the reception in progress comes to: the bits read after the start bit, those still to be read at the
line's present level, give the report and its length (R39, R147). None with no reception in progress, in a state whose
receiver is off, or where no bit has been read low and the line is high, so that there is no start bit. -/
def State.arriving (s : State) : Option Arrival :=
  match s.line.receiver with
  | .idle => none
  | .receiving slot p =>
    let read := p.ahead longestReport (!s.line.lineLow)
    let rx := receive (read.drop 1)
    let length := lineLength (readCount rx.count)
    if s.member.state.onLine && decide (read.head? = some false) then
      some { slot := slot, bits := (read.take length).drop 1, rx := rx, after := p.toEnd length }
    else none

/-- The arrival that ends the reception in progress (R39, R147). An arrival of other bits than those read does not come
(log 5). -/
def takeArrival (bits : List Bool) (cfg : Configuration) (s : State) : State :=
  match s.arriving with
  | none => s
  | some a =>
    if a.bits = bits then
      let s := s.advance a.after
      arrive cfg a.slot a.rx { s with line := s.line.endReception a.slot }
    else s

/-! ### The settle point (R145) -/

/-- A settle point is produced once in a cycle, at the end of its open window (R145). -/
def settlePointDue (s : State) : Bool := s.member.state.onLine && s.line.windowOpen

/-- A row leaves the roster at a settle point, with every entry of its station (R20, R99). -/
def dropRow (cfg : Configuration) (p : StationNo) (s : State) : State :=
  let s := s.setMap cfg (removeOwner p s.map)
  { s with roster := s.roster.set p { s.roster[p] with status := .absent, silence := 0, sentAck := false } }

/-- The Roster takes one row (R99). -/
def settleRow (cfg : Configuration) (s : State) (p : StationNo) : State :=
  let row := s.roster[p]
  match row.status with
  | .absent => s
  | .departing => if row.heard then s else (dropRow cfg p s).issue (.peerLeft p)
  | .live =>
    if row.heard then { s with roster := s.roster.set p { row with silence := 0 } }
    else if row.silence + 1 < cfg.expiry then
      { s with roster := s.roster.set p { row with silence := row.silence + 1 } }
    else (dropRow cfg p s).issue (.peerLost p)

/-- The Roster's part of a settle point: every row, in ascending station number (R99). -/
def settleRoster (cfg : Configuration) (s : State) : State :=
  if s.member.state.onLine then stationOrder.foldl (settleRow cfg) s else s

/-- The sequence a settle point adopts, if it adopts one: a lower one, and in LISTENING any that differs (R152, R153). It
is a matter of the state as the settle point comes, whatever the other blocks have made of it. -/
def adopted (s : State) : Option Sequence :=
  s.line.lowestHeard.filter (fun q =>
    match s.member.state with
    | .member | .departing | .silenced => decide (q < s.line.sequence)
    | .listening => decide (q ≠ s.line.sequence)
    | .dormant | .ready | .lineFault => false)

/-- The Line Interface's adoption; `was` is the state as the settle point comes. A departure that the settle point
completes keeps the sequence and adopts it before or after (R152, R153, R167). -/
def settleSequence (was s : State) : State :=
  match adopted was with
  | none => s
  | some q =>
    State.issue (.sequenceAdopted was.line.sequence q) { s with line := { s.line with sequence := q } }

/-- Whether a settle point completes the departure (R116). -/
def departureDue (s : State) : Bool :=
  decide (s.member.state = .departing) && decide (s.member.departureCount = 2)

/-- The Membership Controller's part: the departure completes once two departure reports were composed (R116). -/
def settleDeparture (cfg : Configuration) (s : State) : State := if departureDue s then s.enterReady cfg else s

/-- The blocks that take a settle point. -/
inductive SettleBlock where
  | roster | claim | sequence | departure
  deriving DecidableEq, Repr

/-- One block's part of a settle point; `was` is the state as it comes. -/
def settleBlock (cfg : Configuration) (was s : State) : SettleBlock → State
  | .roster => settleRoster cfg s
  | .claim => settleClaim cfg s
  | .sequence => settleSequence was s
  | .departure => settleDeparture cfg s

/-- Puts a block at a place among others. -/
def placeBlock (b : SettleBlock) : Nat → List SettleBlock → List SettleBlock
  | 0, bs => b :: bs
  | _, [] => [b]
  | n + 1, a :: bs => a :: placeBlock b n bs

/-- The order in which the blocks take a settle point, made from three open numbers: every order of the four can come
out (R167, log 3). -/
def settleOrder (n : Nat × Nat × Nat) : List SettleBlock :=
  placeBlock .departure (n.2.2 % 4) (placeBlock .sequence (n.2.1 % 3) (placeBlock .claim (n.1 % 2) [.roster]))

/-- The settle point is taken: the window closes, and the blocks take it in an order the manual leaves open (R145,
R167). -/
def takeSettlePoint (cfg : Configuration) (s : State) : State :=
  if settlePointDue s then
    let s := s.advanceTimer settleTime
    let s := { s with line := { s.line with windowOpen := false } }
    ((settleOrder (Config.settleChoice s.choices)).foldl (settleBlock cfg s) s).countChoice
  else s

/-- Whether the settle point expires a LIVE row: it was not heard and its silence is at E − 1 (R99). -/
def losesPeer (cfg : Configuration) (s : State) : Bool :=
  stationOrder.any (fun p =>
    decide (s.roster[p].status = .live) && !s.roster[p].heard && decide (cfg.expiry ≤ s.roster[p].silence + 1))

end Sys2Proof.Machine
end

