-- ==== Sys2Proof/Machine/LineEvents.lean ====
section
/-! DEFINITION. The commands of the span line's own events: edges, the mark driver, the transmitter, line fault and line
clear (chapter 7). -/

namespace Sys2Proof.Machine

/-- An event inside the part: taken when RESET is not held and a configuration is in force, for without one the blocks
that take it are off (R124, R183). Otherwise nothing is taken. -/
def internalEvent (s : State) (taking : Configuration → State → State) : Host.Outcome State Fault Refusal :=
  if s.resetHeld then .next s
  else
    match s.config with
    | none => .next s
    | some cfg => .next (taking cfg s)

/-! ### Driving a mark (R142) -/

/-- The mark driver may drive: the line has been high for 32 bit times. A low that another station began after such a
high less than one bit time ago falls within the same bit time, and both drive (R142, R155; log 11). -/
def LineInterface.mayDrive (l : LineInterface) : Bool :=
  (!l.lineLow || decide (l.lowTime < bitTime)) && decide (highBeforeMark ≤ l.highTime)

/-- The mark driver acts: it drives if it may, and waits otherwise (R142). -/
def LineInterface.driveMark (l : LineInterface) : LineInterface :=
  { l with markDriver := if l.mayDrive then .driving 0 else .waiting }

/-- The founding flag is set (R109). -/
def found (s : State) : State :=
  { s with member := { s.member with founding := true }, line := { s.line with foundingDue := false } }

/-- The founding wait reaches two own cycle lengths: the founding flag is set and the mark driver acts at once (R109).
Where a mark has been taken and its window is open, the wait has reached its end only together with that mark, and then
the station drives at the next expiry (R155). -/
def takeFounding (cfg : Configuration) (s : State) : State :=
  if s.member.state = .listening ∧ s.member.founding = false then
    match s.line.foundingWait with
    | none => s
    | some w =>
      if s.line.windowOpen then
        if s.line.foundingDue || s.line.foundingReached cfg then found s else s
      else
        let s := found (s.advanceTo (2 * ownCycleLength cfg) w)
        { s with line := s.line.driveMark }
  else s

/-- The cycle timer reaches one own cycle length: where the mark driver is on and not driving already, it acts (R142);
in LISTENING with the founding flag clear nothing is driven (R144). An expiry that comes together with a mark already
taken finds the window open, and nothing is driven (R155). -/
def takeTimerExpiry (cfg : Configuration) (s : State) : State :=
  match s.line.cycleTimer with
  | none => s
  | some now =>
    if s.member.state.onLine && !s.line.windowOpen && decide (now ≤ ownCycleLength cfg) then
      let s := s.advanceTo (ownCycleLength cfg) now
      if s.drivesMarks && decide (s.line.markDriver = .idle) then { s with line := s.line.driveMark } else s
    else s

/-- The high time reaches 32 bit times while the station waits to drive (R142). While the line is low it does not. -/
def takeDeferredDrive (s : State) : State :=
  if s.drivesMarks && decide (s.line.markDriver = .waiting) then
    let s := if s.line.lineLow then s else s.advanceTo highBeforeMark s.line.highTime
    { s with line := s.line.driveMark }
  else s

/-- FOUNDING (R109). -/
def execFounding (s : State) : Host.Outcome State Fault Refusal := internalEvent s takeFounding

/-- CYCLE_TIMER_EXPIRY (R142, R144). -/
def execCycleTimerExpiry (s : State) : Host.Outcome State Fault Refusal := internalEvent s takeTimerExpiry

/-- DEFERRED_MARK_DRIVE (R142). -/
def execDeferredMarkDrive (s : State) : Host.Outcome State Fault Refusal :=
  internalEvent s (fun _ s => takeDeferredDrive s)

/-! ### The transmitter (R146, R148) -/

/-- Whether the low that lasts now, or has just ended, covers a sample of slot bits 0 to 3 of a slot that begins at
`start`: samples fall in the middle of each bit (R139, R146). One that coincides with an edge reads the level before it
(log 12). -/
def LineInterface.lowInLead (start : Nat) (l : LineInterface) : Bool :=
  match l.cycleTimer with
  | none => false
  | some now =>
    [0, 1, 2, 3].any (fun k =>
      let sample := start + k * bitTime + bitTime / 2
      decide (now < sample + l.lowTime) && decide (sample ≤ now))

/-- The own report waits in its own slot for the transmitter to start. -/
def transmitDue (s : State) : Bool :=
  s.member.state.sends && decide (s.line.slotPhase = .during) && decide (s.line.transmitter = .idle)
    && s.line.ownReport.isSome && !s.line.reportSent

/-- The own report is dropped: the line read low in slot bits 0 to 3 (R146). -/
def LineInterface.holdOff (l : LineInterface) : LineInterface := { l with ownReport := none, heldOff := true }

/-- The transmitter starts; the own slot is not decoded (R146, R37). -/
def LineInterface.startSending (l : LineInterface) : LineInterface :=
  { l with transmitter := .sending .start, receiver := .idle }

/-- Slot bit 4 of the own slot (R146). -/
def takeTransmitStart (cfg : Configuration) (s : State) : State :=
  if transmitDue s then
    let start := ownSlotTime cfg s
    let s := s.advanceTimer (start + 4 * bitTime)
    { s with
      line := if s.line.heldOff || (s.line.lineLow && s.line.lowInLead start) then s.line.holdOff
        else s.line.startSending }
  else s

/-- The bits of the own report on the line; none where there is no report (R140). -/
def LineInterface.ownBits (l : LineInterface) : List Bool :=
  match l.ownReport with
  | some r => lineBits r
  | none => []

/-- The first bit, counted from 0, at which what is read back differs from what was sent (R148). -/
def firstMismatch : List Bool → List Bool → Option Nat
  | b :: sent, c :: read => if b = c then (firstMismatch sent read).map (· + 1) else some 0
  | _, _ => none

/-- The first bit of the own report that does not read back as it was sent, the bits still to come read at the line's
present level (R148). -/
def LineInterface.mismatch (p : Sampler) (l : LineInterface) : Option Nat :=
  firstMismatch l.ownBits (p.ahead longestReport (!l.lineLow))

/-- At the middle of the first bit that does not read back what was sent, the transmitter stops and releases the driver
(R148, R151). Where bit `bit` is not the first, or every bit matches, there is no such moment (log 5). -/
def takeEchoMismatch (bit : Nat) (s : State) : State :=
  match s.line.transmitter with
  | .idle | .stopped => s
  | .sending p =>
    match s.line.mismatch p with
    | none => s
    | some n =>
      if n = bit then
        let s := s.advance (p.toSample n)
        { s with line := { s.line with transmitter := .stopped } }
      else s

/-- The last bit of the own report has been sent, and every bit has matched (R146, R149). A report with a bit that does
not match is not sent to its end. -/
def takeTransmitEnd (s : State) : State :=
  match s.line.transmitter with
  | .idle | .stopped => s
  | .sending p =>
    match s.line.mismatch p with
    | some _ => s
    | none =>
      let s := s.advance (p.toEnd s.line.ownBits.length)
      { s with line := { s.line with transmitter := .idle, reportSent := true } }

/-- TRANSMIT_START (R146). -/
def execTransmitStart (s : State) : Host.Outcome State Fault Refusal := internalEvent s takeTransmitStart

/-- ECHO_MISMATCH (R148). -/
def execEchoMismatch (n : Nat) (s : State) : Host.Outcome State Fault Refusal :=
  internalEvent s (fun _ s => takeEchoMismatch n s)

/-- TRANSMIT_END (R146). -/
def execTransmitEnd (s : State) : Host.Outcome State Fault Refusal := internalEvent s (fun _ s => takeTransmitEnd s)

/-- Whether this station pulls the line low: it drives a mark, or sends a bit of value 0 of its report (R139, R142,
R146). -/
def LineInterface.drivesLow (l : LineInterface) : Bool :=
  (match l.markDriver with | .driving _ => true | .idle | .waiting => false)
    || (match l.transmitter with
        | .sending p => !(l.ownBits.getD p.currentBit true)
        | .idle | .stopped => false)

/-! ### Edges of the line (R141, R147, R154) -/

/-- The talk slot at a cycle timer reading, and the CLK cycles since its beginning (R145). -/
def slotAt (now : Nat) : Option (Fin 16 × Nat) :=
  if slotStart 0 ≤ now ∧ now < settleTime then
    some (Fin.ofNat 16 ((now - slotStart 0) / (256 * bitTime)), (now - slotStart 0) % (256 * bitTime))
  else none

/-- The receiver reads this slot: every slot but the own one; the own one in LISTENING, when the transmitter is held
off, and before slot bit 4, where a low holds it off (R39, R147). -/
def readsSlot (cfg : Configuration) (s : State) (slot : Fin 16) (pos : Nat) : Bool :=
  decide (slot ≠ ownSlot cfg s.line.sequence) || decide (s.member.state = .listening) || s.line.heldOff
    || (decide (s.line.transmitter = .idle) && !s.line.reportSent && decide (pos < 4 * bitTime))

/-- The slot whose start bit may begin with a fall here: one within slot bits 0 to 15 of a slot that is read and has had
no report, with the line high at the sample before it (R147). `high` is how long the line had been high; a sample that
coincides with the rise reads it low, and one that coincides with the fall reads it high (log 12). Whether the line is
low at the next sample shows half a bit time later (Receiver.check). -/
def startBit (cfg : Configuration) (s : State) (high : Nat) : Option (Fin 16) :=
  if s.member.state.onLine && s.line.windowOpen && decide (s.line.receiver = .idle) then
    match s.line.cycleTimer with
    | none => none
    | some now =>
      match slotAt now with
      | none => none
      | some (slot, pos) =>
        if pos < 16 * bitTime ∧ (pos + bitTime / 2) % bitTime < high ∧ s.line.slotRead ≠ some slot
            ∧ readsSlot cfg s slot pos = true then
          some slot
        else none
  else none

/-- The level goes low: the low time and, where the detector is on, the line-fault measure start; the line-clear measure
stops; the low may be a mark if the line was high for 32 bit times and the window is closed (R141, R154). -/
def LineInterface.fall (detecting : Bool) (l : LineInterface) : LineInterface :=
  { l with
    lineLow := true
    lowTime := 0
    faultMeasure := if detecting then some 0 else none
    faultDue := false
    clearMeasure := none
    lowMayBeMark := !l.windowOpen && decide (highBeforeMark ≤ l.highTime) }

/-- The receiver at a fall: a reception in progress is re-timed (R139), and a receiver that is idle begins one where a
start bit may begin (R147). -/
def Receiver.fall (found : Option (Fin 16)) : Receiver → Receiver
  | .receiving slot p => .receiving slot p.retime
  | .idle =>
    match found with
    | some slot => .receiving slot .start
    | none => .idle

/-- The slot whose start bit may begin with a fall now, if the configuration is in force. -/
def State.foundStart (s : State) : Option (Fin 16) :=
  match s.config with
  | some cfg => startBit cfg s s.line.highTime
  | none => none

/-- The line falls (R147). A line that is low already has no edge. -/
def takeFall (after : Nat) (s : State) : State :=
  let s := s.advance after
  if s.line.lineLow then s
  else
    { s with
      line := { s.line.fall s.member.state.onLine with receiver := s.line.receiver.fall s.foundStart } }

/-- A low in slot bits 0 to 3 of the own slot, before the transmitter starts, holds it off (R146). -/
def noteLead (cfg : Configuration) (s : State) : State :=
  if transmitDue s && s.line.lineLow && s.line.lowInLead (ownSlotTime cfg s) then
    { s with line := { s.line with heldOff := true } }
  else s

/-- The level goes high: the high time starts afresh, the line-fault measure ends, a low that was not taken as a mark is
none, and in LINE FAULT the line-clear measure restarts (R141, R154). A low that had reached 64 bit times as it ended is
a line fault all the same (R154). -/
def LineInterface.rise (faulted : Bool) (l : LineInterface) : LineInterface :=
  { l with
    lineLow := false
    highTime := 0
    faultMeasure := none
    faultDue := l.faultMeasure.any (fun low => decide (faultTime ≤ low))
    lowMayBeMark := false
    clearMeasure := if faulted then some 0 else l.clearMeasure }

/-- The line rises (R141). A line that is high already has no edge. -/
def takeRise (after : Nat) (s : State) : State :=
  let s := s.advance after
  if s.line.lineLow then
    let s := (match s.config with | some cfg => noteLead cfg s | none => s)
    { s with line := s.line.rise (decide (s.member.state = .lineFault)) }
  else s

/-- LINE_RISING_EDGE (R141, R154). The level is followed in every station state (R138). -/
def execLineRisingEdge (after : Nat) (s : State) : Host.Outcome State Fault Refusal := .next (takeRise after s)

/-- LINE_FALLING_EDGE (R141, R147, R154). The level is followed in every station state (R138). -/
def execLineFallingEdge (after : Nat) (s : State) : Host.Outcome State Fault Refusal := .next (takeFall after s)

/-! ### Line fault and line clear (R120, R121, R154) -/

/-- The Line Interface at the entry to LINE FAULT: driver released, transmission stopped, timer stopped, window closed,
reception abandoned, the sequence kept; the line-clear measure runs from the entry if the line is high (R120, R154). The
low of the fault is no mark any more, even if it lasts through a DEPART and a JOIN (DESIGN CHOICE, log 23). -/
def LineInterface.faultStop (l : LineInterface) : LineInterface :=
  { l.switchOff with
    transmitter := (match l.transmitter with | .sending _ => .stopped | t => t)
    lowMayBeMark := false
    clearMeasure := if l.lineLow then none else some 0 }

/-- Entry to LINE FAULT (R120): the pins go low at once and both sets are emptied, map, roster and handshake are
cleared, and LINE FAULT is issued. -/
def enterLineFault (cfg : Configuration) (s : State) : State :=
  let s := (s.setMap cfg []).clearHandshake
  State.issue .lineFault
    { s with
      roster := emptyRoster
      member := .clear .lineFault
      line := s.line.faultStop
      output := .clear }

/-- The line has stayed low for 64 bit times, or has risen just as it had (R154). -/
def takeLineFault (cfg : Configuration) (s : State) : State :=
  if s.member.state.onLine then
    if s.line.faultDue then enterLineFault cfg s
    else
      match s.line.faultMeasure with
      | none => s
      | some low => enterLineFault cfg (s.advanceTo faultTime low)
  else s

/-- The station enters LISTENING, by line clear or by JOIN: the counts and flags are clear and the founding wait begins;
sequence and lease count are kept (R107, R121). A low that lasts from before JOIN is measured from now on, and may be
taken as a mark unless it has been taken already or has caused a line fault (R155; logs 22 and 23). -/
def enterListening (st : State) : State :=
  { st with
    member := .clear .listening
    line := { st.line with
      clearMeasure := none
      foundingWait := some 0
      foundingDue := false
      faultDue := false
      faultMeasure := if st.line.lineLow then some 0 else none } }

/-- In LINE FAULT the line has stayed high for one own cycle length (R121, R154). -/
def takeLineClear (cfg : Configuration) (s : State) : State :=
  if s.member.state = .lineFault then
    match s.line.clearMeasure with
    | none => s
    | some high => (enterListening (s.advanceTo (ownCycleLength cfg) high)).issue .lineClear
  else s

/-- LINE_FAULT (R120). -/
def execLineFault (s : State) : Host.Outcome State Fault Refusal := internalEvent s takeLineFault

/-- LINE_CLEAR (R121). -/
def execLineClear (s : State) : Host.Outcome State Fault Refusal := internalEvent s takeLineClear

end Sys2Proof.Machine
end

