-- ==== Sys2Proof/Machine/CycleEvents.lean ====
section
/-! DEFINITION. The commands of the cycle: marks, slice boundaries, the own slot, arrivals and settle points. A row that
names one outcome of such an event (JOINED, LEASE_LAPSED, WAIT_EXPIRY, SILENCED, DEPARTING_ECHO_CLEAR, RESTORED,
PEER_LOST, DEPARTED) is that whole event, taken where it has that outcome; where it would not, the event the row names
does not come, and nothing is taken (log 4). -/

namespace Sys2Proof.Machine

/-- An event taken only where it has the outcome its row names (log 4). -/
def withOutcome (outcome : Configuration → State → Bool) (taking : Configuration → State → State)
    (cfg : Configuration) (s : State) : State :=
  if outcome cfg s then taking cfg s else s

/-! ### Marks -/

/-- MARK (R143). -/
def execMark (s : State) : Host.Outcome State Fault Refusal := internalEvent s takeMark

/-- Whether the mark to be taken brings a BACKOFF channel's wait to 0 (R75). -/
def endsWait (_ : Configuration) (s : State) : Bool :=
  channelOrder.any (fun c => decide ((s.channel c).state = .backoff ∧ (s.channel c).wait = 1))

/-- WAIT_EXPIRY (R75): the mark at which a BACKOFF channel's wait reaches 0. -/
def execWaitExpiry (s : State) : Host.Outcome State Fault Refusal := internalEvent s (withOutcome endsWait takeMark)

/-- JOINED (R111): the (E + 1)th mark in LISTENING. -/
def execJoined (s : State) : Host.Outcome State Fault Refusal := internalEvent s (withOutcome joinsAtMark takeMark)

/-- LEASE_LAPSED (R160): the mark that brings the lease count to L. -/
def execLeaseLapsed (s : State) : Host.Outcome State Fault Refusal :=
  internalEvent s (withOutcome lapsesAtMark takeMark)

/-! ### Slice boundaries -/

/-- Slice boundary `counter + 1`: the counter rises, and the pins follow (R126, R131). From 63 there is no further
boundary, and a stopped counter has none. -/
def takeSliceBoundary (cfg : Configuration) (s : State) : State :=
  if s.output.running && decide (s.output.counter < 63) then
    let s := s.advanceTimer ((s.output.counter + 1) * sliceLength cfg.sliceCode)
    { s with output := ({ s.output with counter := s.output.counter + 1 } : OutputSequencer).drive }
  else s

/-- SLICE_BOUNDARY (R126). -/
def execSliceBoundary (s : State) : Host.Outcome State Fault Refusal := internalEvent s takeSliceBoundary

/-! ### The own slot -/

/-- OWN_SLOT_START (R30). -/
def execOwnSlotStart (s : State) : Host.Outcome State Fault Refusal := internalEvent s takeOwnSlotStart

/-- OWN_SLOT_END (R149). -/
def execOwnSlotEnd (s : State) : Host.Outcome State Fault Refusal := internalEvent s takeOwnSlotEnd

/-- SILENCED (R112): the own-slot-end that brings the echo-failure count to E − 1 in MEMBER. -/
def execSilenced (s : State) : Host.Outcome State Fault Refusal :=
  internalEvent s (withOutcome silencesAtEnd takeOwnSlotEnd)

/-- DEPARTING_ECHO_CLEAR (R118): the own-slot-end that brings the count to E − 1 in DEPARTING before the first departure
report. -/
def execDepartingEchoClear (s : State) : Host.Outcome State Fault Refusal :=
  internalEvent s (withOutcome clearsAtEnd takeOwnSlotEnd)

/-- RESTORED (R113): the own-slot-end with a second consecutive echo success in SILENCED. -/
def execRestored (s : State) : Host.Outcome State Fault Refusal :=
  internalEvent s (withOutcome (fun _ s => restoresAtEnd s) takeOwnSlotEnd)

/-! ### Arrivals and settle points -/

/-- REPORT_ARRIVAL (R43). -/
def execReportArrival (bits : List Bool) (s : State) : Host.Outcome State Fault Refusal :=
  internalEvent s (takeArrival bits)

/-- SETTLE_POINT (R145). -/
def execSettlePoint (s : State) : Host.Outcome State Fault Refusal := internalEvent s takeSettlePoint

/-- PEER_LOST (R99): a settle point that expires a LIVE row. -/
def execPeerLost (s : State) : Host.Outcome State Fault Refusal :=
  internalEvent s (withOutcome losesPeer takeSettlePoint)

/-- DEPARTED (R116): the settle point with departure count 2. -/
def execDeparted (s : State) : Host.Outcome State Fault Refusal :=
  internalEvent s (withOutcome (fun _ s => departureDue s) takeSettlePoint)

end Sys2Proof.Machine
end

