-- ==== Sys2Proof/Machine/HostPort.lean ====
section
/-! DEFINITION. The host port: HCS, HSCK and the frame, the eleven commands and their responses (chapter 10), and the
reset pin (R124, R189). A command that ends a frame is HCS rising, and it is taken only while a frame is in progress
(R176). -/

namespace Sys2Proof.Machine

/-- What the taking of a command gives: the state it leaves and its response. -/
abbrev Taken := State × Response

/-- A response with no data. -/
def plain (code : ResponseCode) : Response := { code := code, data := [] }

/-- OK with data. -/
def okWith (data : List Byte) : Response := { code := .ok, data := data }

/-! ### Frames (R176, R177, R178) -/

/-- A frame begins: nothing is received, the positions are 0, and the first bit of the held response is on HSDO
(R176). -/
def HostPort.beginFrame (p : HostPort) : HostPort :=
  { p.gather [] with hcs := .frame, hsdo := p.held.bitAt 0 }

/-- The port when HCS rises after these bits: those that no edge of HSCK has brought yet were clocked in before, and HSCK
is idle (log 7); an incomplete byte is discarded, HSDO is low, and the 2 µs of high begin (R176, R177). -/
def HostPort.endFrame (bits : List Bool) (p : HostPort) : HostPort :=
  { p.gather bits with
    hcs := .high, partialBits := [], bitPos := 0, hsdo := false, hsck := false, toClock := [], sinceRise := 0 }

/-- HCS rises with no frame in progress: nothing ends and nothing is taken, and its high is timed afresh (R176, R189). An
HCS that is high already does not rise. -/
def HostPort.riseIdle (p : HostPort) : HostPort :=
  match p.hcs with
  | .high => p
  | .early | .frame | .ignored => { p with hcs := .high, sinceRise := 0 }

/-- HCS falls, and these edges of HSCK are to follow. While RESET is held the low stands for no frame (R189). With RESET
high a frame begins if HCS has been high for 2 µs; if not, the frame is to begin when they have run, and HSCK is not
counted before (R176). HSDO, which is low while HCS is high, stays so until a frame begins: DESIGN CHOICE, log 24. An HCS
that is low already does not fall. -/
def fallHcs (clock : List HsckEdge) (s : State) : State :=
  if s.port.hcs ≠ .high then s
  else
    let fallen :=
      if s.resetHeld then { s.port with hcs := .ignored }
      else if s.port.sinceRise < frameGap then { s.port with hcs := .early }
      else s.port.beginFrame
    { s with port := fallen.feed (!s.resetHeld) clock }

/-- The 2 µs have run after an early fall, and the frame begins; these edges of HSCK are to follow (R176). -/
def beginDeferred (clock : List HsckEdge) (s : State) : State :=
  if s.port.hcs = .early ∧ s.resetHeld = false then
    let s := s.advanceTo frameGap s.port.sinceRise
    { s with port := s.port.beginFrame.feed true clock }
  else s

/-- HCS rises on a frame of these bits, which is taken; its response becomes the held response (R178). The bits clocked
in before are the first of them: a frame in progress that began with other bits is another frame, and nothing is taken
(log 7). -/
def endFrame (bits : List Bool) (taking : State → Taken) (s : State) : State :=
  if s.resetHeld || !s.port.inFrame then { s with port := s.port.riseIdle }
  else if s.port.clocked.isPrefixOf bits then
    let (s', r) := taking { s with port := s.port.endFrame bits }
    { s' with port := { s'.port with held := r } }
  else s

/-- A frame that changes nothing but the held response. -/
def answer (r : Response) (s : State) : Taken := (s, r)

/-- The time that passes before HCS falls: the one given, or else the time missing to 2 µs of high, which the row says
has passed (log 2). -/
def State.beforeFall (after : Option Nat) (s : State) : State :=
  match after with
  | some n => s.advance n
  | none => if s.port.hcs = .high ∧ s.resetHeld = false then s.advanceTo frameGap s.port.sinceRise else s

/-- FRAME_BEGIN (R176): HCS falls. -/
def execFrameBegin (s : State) (after : Option Nat := none) (clock : List HsckEdge := []) :
    Host.Outcome State Fault Refusal :=
  .next (fallHcs clock (s.beforeFall after))

/-- DEFERRED_FRAME_BEGIN (R176): HCS fell early, and the 2 µs have now run. -/
def execDeferredFrameBegin (s : State) (clock : List HsckEdge := []) : Host.Outcome State Fault Refusal :=
  .next (beginDeferred clock s)

/-- SHORT_FRAME (R178). -/
def execShortFrame (bits : List Bool) (s : State) : Host.Outcome State Fault Refusal :=
  if isShortFrame (completeBytes bits) then .next (endFrame bits (answer (plain .shortFrame)) s)
  else .refused (.illFormed "SHORT_FRAME")

/-- UNKNOWN (R178). -/
def execUnknown (command : Byte) (rest : List Bool) (s : State) : Host.Outcome State Fault Refusal :=
  if (commandLength command).isNone then
    .next (endFrame (frameBits [command] rest) (answer (plain .unknown)) s)
  else .refused (.illFormed "UNKNOWN")

/-- FETCH (R181): it changes nothing. -/
def execFetch (extra : List Bool) (s : State) : Host.Outcome State Fault Refusal :=
  .next (endFrame (frameBits [0x00] extra) (answer .okEmpty) s)

/-! ### CONFIGURE (R106, R184) -/

/-- The checks of R184 that hold in READY: no channel with a demand is disabled or given a floor above it, and the lease
is 0 or no less than the lease count. -/
def consistent (cfg : Configuration) (s : State) : Bool :=
  channelOrder.all (fun c =>
    decide (s.demand[c] = 0) || (cfg.channels[c].enabled && decide (cfg.channels[c].floor ≤ s.demand[c])))
    && decide (cfg.lease = 0 ∨ s.leaseCount ≤ cfg.lease)

/-- An accepted CONFIGURE replaces the configuration and takes DORMANT to READY; HINT follows the threshold (R106, R169,
R184). -/
def acceptConfiguration (cfg : Configuration) (s : State) : State :=
  State.refreshHint { s with config := some cfg, member := { s.member with state := .ready } }

/-- CONFIGURE is taken: its checks in the order of R184. -/
def takeConfigure (record : Vector Byte 15) (s : State) : Taken :=
  if s.member.state = .dormant ∨ s.member.state = .ready then
    match parseRecord record with
    | none => (s, plain .badArg)
    | some cfg =>
      if s.member.state = .ready ∧ consistent cfg s = false then (s, plain .badArg)
      else (acceptConfiguration cfg s, .okEmpty)
  else (s, plain .badState)

/-- CONFIGURE (R184). -/
def execConfigure (record : Vector Byte 15) (extra : List Bool) (s : State) : Host.Outcome State Fault Refusal :=
  .next (endFrame (frameBits (0x11 :: record.toList) extra) (takeConfigure record) s)

/-! ### JOIN, DEPART, RESTART (R107, R115, R117, R123) -/

/-- JOIN in READY: LISTENING, with sequence, listen count, echo-failure count and lease count 0, the flags clear and the
founding wait begun (R107). -/
def joinLine (s : State) : State :=
  enterListening { s with line := { s.line with sequence := 0, echoFailures := 0 }, leaseCount := 0 }

/-- JOIN is taken. -/
def takeJoin (s : State) : Taken :=
  if s.member.state = .ready then (joinLine s, .okEmpty) else (s, plain .badState)

/-- JOIN (R107). -/
def execJoin (extra : List Bool) (s : State) : Host.Outcome State Fault Refusal :=
  .next (endFrame (frameBits [0x21] extra) takeJoin s)

/-- DEPART in MEMBER: DEPARTING, with the departure count 0 and the new-member indication clear (R115). -/
def beginDeparture (s : State) : State :=
  { s with member := { s.member with state := .departing, departureCount := 0, newMember := false } }

/-- DEPART in LISTENING, SILENCED or LINE FAULT: READY at once (R117). -/
def departAtOnce (s : State) : State :=
  match s.config with
  | some cfg => s.enterReady cfg
  | none => s

/-- DEPART is taken. -/
def takeDepart (s : State) : Taken :=
  match s.member.state with
  | .dormant | .ready => (s, plain .badState)
  | .member => (beginDeparture s, .okEmpty)
  | .departing => (s, .okEmpty)
  | .listening | .silenced | .lineFault => (departAtOnce s, .okEmpty)

/-- DEPART (R115, R117). -/
def execDepart (extra : List Bool) (s : State) : Host.Outcome State Fault Refusal :=
  .next (endFrame (frameBits [0x22] extra) takeDepart s)

/-- A restart (R123): READY if configured and DORMANT if not; every block at its reset value but for the configuration,
the level of the line and its times, and the port's own frame, which has ended. -/
def restart (s : State) : State :=
  { s with
    line := { s.line.switchOff with sequence := 0 }
    rxErrors := 0
    map := []
    channels := resetChannels
    claim := none
    roster := emptyRoster
    member := .clear (if s.configured then .ready else .dormant)
    output := .clear
    demand := Vector.replicate 4 0
    leaseCount := 0
    notices := .clear
    port := { s.port with held := .okEmpty, received := [], partialBits := [], bitPos := 0, outPos := 0 } }

/-- RESTART is taken in every state and answered OK after its clears (R186). -/
def takeRestart (s : State) : Taken := (restart s, .okEmpty)

/-- RESTART (R123). -/
def execRestart (extra : List Bool) (s : State) : Host.Outcome State Fault Refusal :=
  .next (endFrame (frameBits [0x2F] extra) takeRestart s)

/-! ### DEMAND and RENEW (R157, R161) -/

/-- The checks of DEMAND on its parameters, in the order of R157. -/
def demandAccepted (cfg : Configuration) (channel length : Byte) : Bool :=
  decide (channel.toNat ≤ 3) && cfg.channels[Fin.ofNat 4 channel.toNat].enabled && decide (length.toNat ≤ 64)
    && (decide (length.toNat = 0) || decide (cfg.channels[Fin.ofNat 4 channel.toNat].floor ≤ length.toNat))

/-- DEMAND is taken: DORMANT is checked first (R157). -/
def takeDemand (channel length : Byte) (s : State) : Taken :=
  if s.member.state = .dormant then (s, plain .badState)
  else
    match s.config with
    | none => (s, plain .badArg)
    | some cfg =>
      if demandAccepted cfg channel length then
        (s.writeDemand (Fin.ofNat 4 channel.toNat) length.toNat, .okEmpty)
      else (s, plain .badArg)

/-- DEMAND (R157). -/
def execDemand (channel length : Byte) (extra : List Bool) (s : State) : Host.Outcome State Fault Refusal :=
  .next (endFrame (frameBits [0x31, channel, length] extra) (takeDemand channel length) s)

/-- RENEW with a configured lease (R161). -/
def renewLease (lease : Nat) (s : State) : Taken :=
  if lease = 0 then (s, .okEmpty)
  else if s.leaseCount < lease / 4 then (s.issue .earlyRenew, plain .early)
  else ({ s with leaseCount := 0 }, .okEmpty)

/-- RENEW is taken (R161). -/
def takeRenew (s : State) : Taken :=
  if s.member.state = .dormant ∨ s.member.state = .ready then (s, plain .badState)
  else
    match s.config with
    | none => (s, .okEmpty)
    | some cfg => renewLease cfg.lease s

/-- RENEW (R161). -/
def execRenew (extra : List Bool) (s : State) : Host.Outcome State Fault Refusal :=
  .next (endFrame (frameBits [0x32] extra) takeRenew s)

/-! ### Reading (R171, R187, R188) -/

/-- STATUS returns the status record, and then the receive error count is 0 (R187). -/
def takeStatus (s : State) : Taken := ({ s with rxErrors := 0 }, okWith (statusRecord s))

/-- STATUS (R187). -/
def execStatus (extra : List Bool) (s : State) : Host.Outcome State Fault Refusal :=
  .next (endFrame (frameBits [0x41] extra) takeStatus s)

/-- READ ROSTER returns the fifteen peer rows; in DORMANT there is no own number (R101, R188). -/
def takeReadRoster (s : State) : Taken :=
  if s.member.state = .dormant then (s, plain .badState)
  else
    match s.config with
    | none => (s, plain .badState)
    | some cfg => (s, okWith (rosterBytes cfg.station s.roster))

/-- READ ROSTER (R188). -/
def execReadRoster (extra : List Bool) (s : State) : Host.Outcome State Fault Refusal :=
  .next (endFrame (frameBits [0x42] extra) takeReadRoster s)

/-- READ SPANS returns the entry count and the selected entries (R24). -/
def takeReadSpans (index count : Byte) (s : State) : Taken :=
  if count.toNat = 0 ∨ 8 < count.toNat then (s, plain .badArg)
  else if s.map = [] then (s, okWith [0])
  else if s.map.length ≤ index.toNat then (s, plain .badArg)
  else (s, okWith (byte s.map.length :: (selectEntries s.map index.toNat count.toNat).flatMap entryBytes))

/-- READ SPANS (R24). -/
def execReadSpans (index count : Byte) (extra : List Bool) (s : State) : Host.Outcome State Fault Refusal :=
  .next (endFrame (frameBits [0x43, index, count] extra) (takeReadSpans index count) s)

/-- TAKE NOTICES returns the lost count and up to `count` notices from the head, removes them and clears the lost count;
HINT follows (R171). -/
def takeTakeNotices (count : Byte) (s : State) : Taken :=
  if count.toNat = 0 ∨ 8 < count.toNat then (s, plain .badArg)
  else
    let out := s.notices.queue.take count.toNat
    (State.refreshHint
      { s with notices := { s.notices with queue := s.notices.queue.drop count.toNat, lost := 0 } },
      okWith (byte s.notices.lost :: byte out.length :: out.flatMap noticeBytes))

/-- TAKE NOTICES (R171). -/
def execTakeNotices (count : Byte) (extra : List Bool) (s : State) : Host.Outcome State Fault Refusal :=
  .next (endFrame (frameBits [0x44, count] extra) (takeTakeNotices count) s)

/-! ### The reset pin (R124, R189) -/

/-- HCS while RESET falls: a low there, of a frame or not, stands for no frame any more (R189). -/
def HcsPhase.reset : HcsPhase → HcsPhase
  | .high => .high
  | .early | .frame | .ignored => .ignored

/-- A full reset: every block at its reset value, and RESET held low. The level of the line and its times go on
following the line (R138), and HCS and HSCK keep their levels, which the host gives them (R189); the edges of HSCK to
come, the queue of waiting commands and the count of open orders are the model's own. -/
def fullReset (s : State) : State :=
  { State.reset with
    line := { s.line.switchOff with sequence := 0 }
    port := { HostPort.reset with hcs := s.port.hcs.reset, hsck := s.port.hsck, toClock := s.port.toClock }
    resetHeld := true
    choices := s.choices
    pending := s.pending }

/-- FULL_RESET (R124). -/
def execFullReset (s : State) : Host.Outcome State Fault Refusal := .next (fullReset s)

/-- RESET_RELEASE (R189): RESET rises, and the part takes frames that begin afterwards. -/
def execResetRelease (s : State) : Host.Outcome State Fault Refusal := .next { s with resetHeld := false }

end Sys2Proof.Machine
end

