-- ==== Sys2Proof/Machine/Dispatch.lean ====
section
/-! DEFINITION. One arm per row of the command table: each command is given to its meaning. -/

namespace Sys2Proof.Machine

/-- The effect of a command on everything but the queue of waiting commands. -/
def exec (i : Instr) (s : State) : Host.Outcome State Fault Refusal :=
  match i with
  | .frameBegin after clock => Sys2Proof.Machine.execFrameBegin s after clock
  | .shortFrame bits => Sys2Proof.Machine.execShortFrame bits s
  | .unknown command rest => Sys2Proof.Machine.execUnknown command rest s
  | .fetch extra => Sys2Proof.Machine.execFetch extra s
  | .configure record extra => Sys2Proof.Machine.execConfigure record extra s
  | .join extra => Sys2Proof.Machine.execJoin extra s
  | .depart extra => Sys2Proof.Machine.execDepart extra s
  | .restart extra => Sys2Proof.Machine.execRestart extra s
  | .demand channel length extra => Sys2Proof.Machine.execDemand channel length extra s
  | .renew extra => Sys2Proof.Machine.execRenew extra s
  | .status extra => Sys2Proof.Machine.execStatus extra s
  | .readRoster extra => Sys2Proof.Machine.execReadRoster extra s
  | .readSpans index count extra => Sys2Proof.Machine.execReadSpans index count extra s
  | .takeNotices count extra => Sys2Proof.Machine.execTakeNotices count extra s
  | .fullReset => Sys2Proof.Machine.execFullReset s
  | .resetRelease => Sys2Proof.Machine.execResetRelease s
  | .founding => Sys2Proof.Machine.execFounding s
  | .cycleTimerExpiry => Sys2Proof.Machine.execCycleTimerExpiry s
  | .deferredMarkDrive => Sys2Proof.Machine.execDeferredMarkDrive s
  | .mark => Sys2Proof.Machine.execMark s
  | .waitExpiry => Sys2Proof.Machine.execWaitExpiry s
  | .joined => Sys2Proof.Machine.execJoined s
  | .leaseLapsed => Sys2Proof.Machine.execLeaseLapsed s
  | .sliceBoundary => Sys2Proof.Machine.execSliceBoundary s
  | .ownSlotStart => Sys2Proof.Machine.execOwnSlotStart s
  | .transmitStart => Sys2Proof.Machine.execTransmitStart s
  | .echoMismatch n => Sys2Proof.Machine.execEchoMismatch n s
  | .transmitEnd => Sys2Proof.Machine.execTransmitEnd s
  | .ownSlotEnd => Sys2Proof.Machine.execOwnSlotEnd s
  | .silenced => Sys2Proof.Machine.execSilenced s
  | .departingEchoClear => Sys2Proof.Machine.execDepartingEchoClear s
  | .restored => Sys2Proof.Machine.execRestored s
  | .reportArrival bits => Sys2Proof.Machine.execReportArrival bits s
  | .settlePoint => Sys2Proof.Machine.execSettlePoint s
  | .peerLost => Sys2Proof.Machine.execPeerLost s
  | .departed => Sys2Proof.Machine.execDeparted s
  | .lineFault => Sys2Proof.Machine.execLineFault s
  | .lineClear => Sys2Proof.Machine.execLineClear s
  | .deferredFrameBegin clock => Sys2Proof.Machine.execDeferredFrameBegin s clock
  | .lineRisingEdge after => Sys2Proof.Machine.execLineRisingEdge after s
  | .lineFallingEdge after => Sys2Proof.Machine.execLineFallingEdge after s

end Sys2Proof.Machine
end

