-- ==== Sys2Proof/Safety.lean ====
section
/-! DEFINITION. What holds of every state of a run, in the terms the statements use. Each is a property of one state; a
statement says that it holds after reset and that every step keeps it. -/

namespace Sys2Proof

namespace Machine

/-- A frame is in progress at the host port with RESET high, and what has been clocked in so far begins these bits: HCS
rising after them ends the frame (R176, R178). -/
abbrev FrameOf (s : State) (bits : List Bool) : Prop :=
  s.resetHeld = false ∧ s.port.hcs = .frame ∧ (s.port.received.flatMap byteBits ++ s.port.partialBits) <+: bits

/-- RESET is high and the configuration `cfg` is in force: the events inside the part are taken. -/
abbrev Running (cfg : Configuration) (s : State) : Prop := s.resetHeld = false ∧ s.config = some cfg

/-- The state in which nothing has changed but that a frame of these bits has ended with this response: the complete
bytes are in the record, HSDO has shown as many bits of the response held before, and it and HSCK are low (R176, R177,
R178). -/
def State.frameEnded (bits : List Bool) (r : Response) (s : State) : State :=
  { s with
    port := {
      held := r, hcs := .high, received := completeBytes bits, partialBits := [], bitPos := 0, outPos := bits.length / 8
      hsdo := false, hsck := false, toClock := [], sinceRise := 0
      shown := (s.port.held.bytes.flatMap byteBits ++ List.replicate bits.length false).take bits.length } }

/-- The span map's canonical form: in map order (R4), and no two entries of one kind and (owner, channel) (R3). -/
abbrev MapOrdered (m : List Entry) : Prop :=
  m.Pairwise (fun e f => e.rank < f.rank ∧ e.samePlace f = false)

/-- The configuration in force, if there is one, has every field in range (R183). -/
abbrev ConfigurationInRange (s : State) : Prop := ∀ cfg, s.config = some cfg → cfg.inRange = true

/-- There is no configuration exactly in DORMANT (R104, R106, R123). -/
abbrev ConfiguredUnlessDormant (s : State) : Prop := s.config = none ↔ s.member.state = .dormant

/-- Nothing is left of the line in the states that take no cycle events: no map entry, an empty roster, both sets empty,
the counter stopped at 0 and every pin low (R22, R102, R127, R134). -/
abbrev EmptyOffLine (s : State) : Prop :=
  s.member.state.onLine = false → s.map = [] ∧ s.roster = emptyRoster ∧ s.output = .clear

/-- Every overlap mark agrees with the load and the own budget (R8). -/
abbrev MarksRight (s : State) : Prop := ∀ cfg, s.config = some cfg → s.map = refreshMarks cfg.budget s.map

/-- The span of a channel's own STANDING entry; none without a configuration. -/
def State.ownStanding (s : State) (c : ChannelNo) : Option Span :=
  match s.config with
  | some cfg => ownSpan cfg s.map c
  | none => none

/-- For every channel the own STANDING entry, the held span and the staged span are one span, the deficit is the demand
less its length, and the demand register and its copy agree (R26, R47, R50, R156). -/
abbrev HeldInStep (s : State) : Prop :=
  ∀ c : ChannelNo,
    (s.channel c).held = s.ownStanding c ∧ s.output.staged[c] = s.ownStanding c
      ∧ (s.channel c).deficit = (s.channel c).demand - heldLength (s.ownStanding c)
      ∧ s.demand[c] = (s.channel c).demand

/-- Each pin is high exactly where the channel's active span covers the counter's slice (R131). -/
abbrev PinsFollow (s : State) : Prop := s.output.pins = pinLevels s.output.active s.output.counter

/-- In a frame the port's positions count what has been clocked in, and HSDO shows the bit of the held response that
comes next, or, while HSCK is high, the one whose period it is (R175, R176, R177). With no frame in progress no byte is
begun and HSDO is low (R177, R189; after an early fall of HCS and after a reset with HCS low, log 24). -/
abbrev PortFollows (s : State) : Prop :=
  (s.port.hcs = .frame →
      s.port.bitPos = s.port.partialBits.length ∧ s.port.bitPos < 8 ∧ s.port.outPos = s.port.received.length
        ∧ s.port.hsdo = (s.port.held.bytes.flatMap byteBits).getD
            (8 * s.port.outPos + s.port.bitPos - (if s.port.hsck then 1 else 0)) false)
    ∧ (s.port.hcs ≠ .frame → s.port.bitPos = 0 ∧ s.port.partialBits = [] ∧ s.port.hsdo = false)

/-- While RESET is held low the station is DORMANT, and no frame is in progress (R124, R189). -/
abbrev QuietInReset (s : State) : Prop :=
  s.resetHeld = true → s.member.state = .dormant ∧ s.port.hcs ≠ .frame

/-- HINT is low exactly while the fill is at the threshold or an urgent notice waits (R169). -/
abbrev HintFollows (s : State) : Prop := s.notices.hintLow = hintLevel s.config s.notices.queue

/-- Every saturating or bounded count is within its range (R42, R125, R150, R164). -/
abbrev CountsInRange (s : State) : Prop :=
  s.notices.queue.length ≤ 32 ∧ s.notices.lost ≤ 255 ∧ s.rxErrors ≤ 255 ∧ s.line.echoFailures ≤ 15
    ∧ s.output.counter ≤ 63 ∧ ∀ c : ChannelNo, (s.channel c).streak ≤ 255 ∧ (s.channel c).wait ≤ 7

/-- The outstanding claim flag is set in exactly the channels whose state is CLAIMED (R47). -/
abbrev FlagsShowClaims (s : State) : Prop :=
  ∀ c : ChannelNo, (s.channel c).claimed = true ↔ (s.channel c).state = .claimed

/-- The station has no entry of its own in the map. -/
abbrev NoOwnEntry (cfg : Configuration) (s : State) : Prop := ∀ e ∈ s.map, e.owner ≠ cfg.station

/-- Once the echo-failure count has reached E − 1 the station holds no own entry and stages no span (R112): it is so in
SILENCED, and in DEPARTING from that count on or from the first departure report on; a MEMBER's count stays below E − 1,
and the count is 0 in LISTENING and LINE FAULT. -/
abbrev QuietWhenUnheard (s : State) : Prop :=
  ∀ cfg, s.config = some cfg →
    (s.member.state = .silenced → NoOwnEntry cfg s)
    ∧ (s.member.state = .departing →
        (cfg.expiry ≤ s.line.echoFailures + 1 ∨ s.member.departureCount ≠ 0) → NoOwnEntry cfg s)
    ∧ (s.member.state = .member → s.line.echoFailures + 1 < cfg.expiry)
    ∧ ((s.member.state = .listening ∨ s.member.state = .lineFault) → s.line.echoFailures = 0)
    ∧ (s.member.state = .listening → NoOwnEntry cfg s)

/-- Every map entry's owner is the station itself or a station whose row is LIVE (R9). -/
abbrev OwnersLive (s : State) : Prop :=
  ∀ cfg, s.config = some cfg → ∀ e ∈ s.map, e.owner = cfg.station ∨ s.roster[e.owner].status = .live

/-- With the lease enabled the lease count never exceeds L (R160); in DORMANT it is 0. -/
abbrev LeaseWithinL (s : State) : Prop :=
  (∀ cfg, s.config = some cfg → cfg.lease ≠ 0 → s.leaseCount ≤ cfg.lease)
    ∧ (s.member.state = .dormant → s.leaseCount = 0)

/-- The row of the station's own number is unused (R96). -/
abbrev OwnRowUnused (s : State) : Prop := ∀ cfg, s.config = some cfg → s.roster[cfg.station] = Row.empty

/-- All of the above together. -/
structure Coherent (s : State) : Prop where
  mapOrdered    : MapOrdered s.map
  inRange       : ConfigurationInRange s
  configured    : ConfiguredUnlessDormant s
  emptyOffLine  : EmptyOffLine s
  marksRight    : MarksRight s
  heldInStep    : HeldInStep s
  pinsFollow    : PinsFollow s
  portFollows   : PortFollows s
  quietInReset  : QuietInReset s
  hintFollows   : HintFollows s
  countsInRange : CountsInRange s
  flags         : FlagsShowClaims s
  quiet         : QuietWhenUnheard s
  ownersLive    : OwnersLive s
  lease         : LeaseWithinL s
  ownRow        : OwnRowUnused s

end Machine

end Sys2Proof
end

