-- ==== Sys2Proof/WellFormed.lean ====
section
/-! DEFINITION. Which terms of Instr are commands of their row. A SHORT_FRAME's bits make a short frame, and an UNKNOWN's
byte is outside the command table. Every other term is a command: parameters are bytes of a frame, and a range the
manual checks is checked by the command itself. -/

namespace Sys2Proof

/-- A term that is a command of its row. -/
def Instr.wellFormed : Instr → Bool
  | .shortFrame bits => Machine.isShortFrame (Machine.completeBytes bits)
  | .unknown command _ => (Machine.commandLength command).isNone
  | .frameBegin _ _ | .fetch _ | .configure _ _ | .join _ | .depart _ | .restart _ | .demand _ _ _ | .renew _ | .status _
  | .readRoster _ | .readSpans _ _ _ | .takeNotices _ _ | .fullReset | .resetRelease | .founding | .cycleTimerExpiry
  | .deferredMarkDrive | .mark | .waitExpiry | .joined | .leaseLapsed | .sliceBoundary | .ownSlotStart | .transmitStart
  | .echoMismatch _ | .transmitEnd | .ownSlotEnd | .silenced | .departingEchoClear | .restored | .reportArrival _
  | .settlePoint | .peerLost | .departed | .lineFault | .lineClear | .deferredFrameBegin _ | .lineRisingEdge _
  | .lineFallingEdge _ => true

end Sys2Proof
end

