-- ==== Sys2Proof/Certificates/Slice0/Obligations.lean ====
section
/-! DEFINITION. The statements for the provers. Each is listed in OBLIGATIONS.json with the rule of spec/ it formalises. A
statement about a command gives the whole next state, or the fields named in it and all that it leaves unchanged. -/

open Sys2Proof Sys2Proof.Machine

/-! ### The queue of waiting commands, and what stops -/

/-- A step takes the command at the front of the queue: it is exec of that command on the state with the queue's rest.
-/
def Obligations.StepTakesFrontCommand : Prop :=
  ∀ (s : State) (i : Instr) (rest : List Instr), s.pending = i :: rest → step s = exec i { s with pending := rest }

/-- With no command waiting a step lets one CLK cycle pass: the running measures and readings go on by one, the edges
of HSCK that come in it come (HostPort.advance, which FrameBeginStartsAFrame spells out), and nothing else changes but
a mark drive that has then lasted 16 bit times and a founding that fell together with a mark. The model's choice, log
2. -/
def Obligations.IdleStepPassesOneClockCycle : Prop :=
  ∀ s : State, s.pending = [] →
    let level := !s.line.lineLow
    step s = .next
      { s with
        line := { s.line with
          cycleTimer := s.line.cycleTimer.map (· + 1)
          transmitter :=
            match s.line.transmitter with
            | .sending p => .sending (p.pass 1 level)
            | .idle => .idle
            | .stopped => .stopped
          receiver :=
            match s.line.receiver with
            | .receiving slot p =>
              if (p.pass 1 level).levels.head? = some true then .idle else .receiving slot (p.pass 1 level)
            | .idle => .idle
          foundingWait := s.line.foundingWait.map (· + 1)
          foundingDue := false
          clearMeasure := s.line.clearMeasure.map (· + 1)
          faultMeasure := s.line.faultMeasure.map (· + 1)
          highTime := if s.line.lineLow then s.line.highTime else s.line.highTime + 1
          lowTime := if s.line.lineLow then s.line.lowTime + 1 else s.line.lowTime
          markDriver :=
            match s.line.markDriver with
            | .driving e => if e + 1 < 2048 then .driving (e + 1) else .idle
            | .idle => .idle
            | .waiting => .waiting }
        port := s.port.advance 1 (!s.resetHeld) }

/-- Every well-formed command answers a next state, from every state, and leaves the queue of waiting commands as it is:
none faults and none is refused. The terms that are no command of their row are refused by name: SHORT_FRAME with the
bits of a whole known frame or of an unknown byte, and UNKNOWN with a known command byte. The model's form of the two
rows, log 6. -/
def Obligations.WellFormedCommandsComplete : Prop :=
  ∀ s : State,
    (∀ i : Instr, i.wellFormed = true → ∃ t, exec i s = .next t ∧ t.pending = s.pending)
    ∧ (∀ (bits : List Bool) (b : Byte) (rest : List Byte) (n : Nat), completeBytes bits = b :: rest →
      commandLength b = some n → n ≤ rest.length + 1 →
      exec (.shortFrame bits) s = .refused (.illFormed "SHORT_FRAME"))
    ∧ (∀ (bits : List Bool) (b : Byte) (rest : List Byte), completeBytes bits = b :: rest → commandLength b = none →
      exec (.shortFrame bits) s = .refused (.illFormed "SHORT_FRAME"))
    ∧ (∀ (b : Byte) (rest : List Bool) (n : Nat), commandLength b = some n →
      exec (.unknown b rest) s = .refused (.illFormed "UNKNOWN"))

/-! ### Frames of the host port -/

/-- The bits of a frame spell the command it is: a frame of any bits is exactly one well-formed command, and reading the
bits of a command's frame gives the command back, with every parameter and every bit beyond them. Bytes are shifted most
significant bit first, and each eight bits make one. -/
def Obligations.FramesSpellTheirCommands : Prop :=
  (∀ (i : Instr) (bits : List Bool), i.wellFormed = true → i.frameBits = some bits → decodeFrame bits = i)
  ∧ (∀ bits : List Bool, (decodeFrame bits).wellFormed = true ∧ (decodeFrame bits).frameBits = some bits)
  ∧ (∀ bits : List Bool,
      (completeBytes bits).flatMap byteBits ++ bits.drop (8 * (bits.length / 8)) = bits
      ∧ (completeBytes bits).length = bits.length / 8)
  ∧ ∀ b : Byte, byteBits b =
      [b.getLsbD 7, b.getLsbD 6, b.getLsbD 5, b.getLsbD 4, b.getLsbD 3, b.getLsbD 2, b.getLsbD 1, b.getLsbD 0]

/-- FRAME_BEGIN, DEFERRED_FRAME_BEGIN and HSCK. HCS falls once the time the command carries has passed, or, where it
carries none, once it has been high for 2 µs (log 2). With RESET high a frame begins if HCS has been high for 2 µs (32
CLK cycles); if not, the frame is to begin when they have run, which DEFERRED_FRAME_BEGIN is. As it begins nothing is
received, the positions are 0, and the first bit of the held response, 1 in every code, is on HSDO. HCS falling while
RESET is low begins no frame, and an HCS that is low does not fall; HSDO stays as it is until a frame begins (the
model's choice, log 24). The edges of HSCK that the command gives follow those still to come, each in its time (log
7), which the first clauses say for the port as time passes: each takes HSCK to its other level; in a frame a rising
edge samples HSDI, which fills the bytes received and moves the positions, and a falling edge puts the next bit of the
held response on HSDO, or 0 where it has no more; an edge with no frame in progress, or with RESET low, moves nothing
else. -/
def Obligations.FrameBeginStartsAFrame : Prop :=
  (∀ r : Response, (r.bytes.flatMap byteBits)[0]? = some true)
  ∧ (∀ (p : HostPort) (counting : Bool) (n : Nat),
    let since := fun (n : Nat) =>
      if counting = true ∧ (p.hcs = .high ∨ p.hcs = .early) then p.sinceRise + n else p.sinceRise
    let bits := p.held.bytes.flatMap byteBits
    let before := p.received.flatMap byteBits ++ p.partialBits
    (p.toClock = [] → p.advance n counting = { p with sinceRise := since n })
    ∧ ∀ (e : HsckEdge) (es : List HsckEdge), p.toClock = e :: es →
      let q := { p with sinceRise := since e.after, toClock := es, hsck := !p.hsck }
      let now := before ++ [e.hsdi]
      (n < e.after → p.advance n counting
        = { p with sinceRise := since n, toClock := { after := e.after - n, hsdi := e.hsdi } :: es })
      ∧ (e.after ≤ n →
        ((p.hcs ≠ .frame ∨ counting = false) → p.advance n counting = q.advance (n - e.after) counting)
        ∧ (p.hcs = .frame → counting = true → p.hsck = true →
          p.advance n counting
            = { q with hsdo := bits.getD before.length false }.advance (n - e.after) counting)
        ∧ (p.hcs = .frame → counting = true → p.hsck = false →
          p.advance n counting
            = { q with
                received := completeBytes now, partialBits := now.drop (8 * (now.length / 8))
                bitPos := now.length % 8, outPos := now.length / 8
                shown := (bits ++ List.replicate now.length false).take now.length }.advance (n - e.after) counting)))
  ∧ ∀ (s : State) (after : Nat) (clock : List HsckEdge),
    let begun := fun (u : State) =>
      { u with
        port := HostPort.advance 0 true { u.port with
          hcs := .frame, received := [], partialBits := [], bitPos := 0, outPos := 0, hsdo := true, shown := []
          toClock := u.port.toClock ++ clock } }
    let low := fun (u : State) (phase : HcsPhase) =>
      { u with
        port := HostPort.advance 0 (!u.resetHeld) { u.port with
          hcs := phase, toClock := u.port.toClock ++ clock } }
    (s.port.hcs = .high → s.resetHeld = false →
      (32 ≤ s.port.sinceRise + after → exec (.frameBegin (some after) clock) s = .next (begun (s.advance after)))
      ∧ (s.port.sinceRise + after < 32 →
        exec (.frameBegin (some after) clock) s = .next (low (s.advance after) .early))
      ∧ exec (.frameBegin none clock) s = .next (begun (s.advance (32 - s.port.sinceRise))))
    ∧ (s.port.hcs = .high → s.resetHeld = true →
      exec (.frameBegin (some after) clock) s = .next (low (s.advance after) .ignored)
      ∧ exec (.frameBegin none clock) s = .next (low s .ignored))
    ∧ (s.port.hcs ≠ .high →
      exec (.frameBegin (some after) clock) s = .next (s.advance after)
      ∧ exec (.frameBegin none clock) s = .next s)
    ∧ (s.port.hcs = .early → s.resetHeld = false →
      exec (.deferredFrameBegin clock) s = .next (begun (s.advance (32 - s.port.sinceRise))))
    ∧ ((s.port.hcs ≠ .early ∨ s.resetHeld = true) → exec (.deferredFrameBegin clock) s = .next s)

/-- Every frame shows the held response and then 0x00, bit for bit with the bits shifted in, an incomplete last byte
among them, whatever these are and whatever state the station is in; then HCS and HSDO are high and low, and the 2 µs
of HCS high begin. HCS rising with no frame in progress, or while RESET is low, takes nothing and times the high
afresh. A command whose bits do not begin with those clocked in so far is not the frame in progress, and takes nothing
(log 7). The held response changes only at the end of a frame and at a full reset, which leaves OK with no data. -/
def Obligations.EveryFrameShowsTheHeldResponse : Prop :=
  (∀ (i : Instr) (s : State) (bits : List Bool), i.wellFormed = true → i.frameBits = some bits →
    ((s.resetHeld = true ∨ s.port.hcs ≠ .frame) →
      exec i s = .next
        { s with
          port := { s.port with
            hcs := .high, sinceRise := if s.port.hcs = .high then s.port.sinceRise else 0 } })
    ∧ (s.resetHeld = false → s.port.hcs = .frame → ¬FrameOf s bits → exec i s = .next s)
    ∧ (FrameOf s bits → ∃ t, exec i s = .next t
      ∧ t.port.shown = (s.port.held.bytes.flatMap byteBits ++ List.replicate bits.length false).take bits.length
      ∧ t.port.hcs = .high ∧ t.port.hsdo = false ∧ t.port.hsck = false ∧ t.port.sinceRise = 0
      ∧ t.port.partialBits = []))
  ∧ ∀ (i : Instr) (s t : State), exec i s = .next t →
    (i = .fullReset → t.port.held = { code := .ok, data := [] })
    ∧ (i ≠ .fullReset → i.frameBits = none → t.port.held = s.port.held)

/-- SHORT_FRAME and UNKNOWN: the held response becomes SHORT FRAME or UNKNOWN with no data, and nothing else changes. -/
def Obligations.UntakenFramesOnlyAnswer : Prop :=
  ∀ s : State,
    (∀ bits : List Bool, FrameOf s bits → completeBytes bits = [] →
        exec (.shortFrame bits) s = .next (s.frameEnded bits { code := .shortFrame, data := [] }))
    ∧ (∀ (bits : List Bool) (b : Byte) (rest : List Byte) (n : Nat), FrameOf s bits → completeBytes bits = b :: rest →
        commandLength b = some n → rest.length + 1 < n →
        exec (.shortFrame bits) s = .next (s.frameEnded bits { code := .shortFrame, data := [] }))
    ∧ (∀ (b : Byte) (rest : List Bool), FrameOf s (frameBits [b] rest) → commandLength b = none →
        exec (.unknown b rest) s = .next (s.frameEnded (frameBits [b] rest) { code := .unknown, data := [] }))

/-- FETCH needs one byte, changes nothing and answers OK with no data, in every state; a second FETCH, in the next
frame, reads OK (0x80) and then zeros. A frame of any other command shows the previous response in the same way. -/
def Obligations.FetchChangesNothing : Prop :=
  commandLength 0x00 = some 1
  ∧ (∀ (s : State) (extra : List Bool), FrameOf s (frameBits [0x00] extra) →
    exec (.fetch extra) s = .next (s.frameEnded (frameBits [0x00] extra) { code := .ok, data := [] })
    ∧ ∀ (clock : List HsckEdge) (again : List Bool) (t u v : State),
        exec (.fetch extra) s = .next t → exec (.frameBegin none clock) t = .next u →
        FrameOf u (frameBits [0x00] again) → exec (.fetch again) u = .next v →
        v.port.shown = byteBits 0x80 ++ List.replicate again.length false)
  ∧ ∀ (i : Instr) (s : State) (bits : List Bool), FrameOf s bits → i.wellFormed = true → i.frameBits = some bits →
      ∃ t, exec i s = .next t
        ∧ t.port.shown = (s.port.held.bytes.flatMap byteBits ++ List.replicate bits.length false).take bits.length

/-! ### Configuration and state requests -/

/-- CONFIGURE is checked in the order of R184: the station state, the record, and in READY the demands and the lease
count. An accepted record replaces the configuration and DORMANT becomes READY; HINT follows the threshold. A refused
one changes nothing. -/
def Obligations.ConfigureIsCheckedInOrder : Prop :=
  ∀ (s : State) (record : Vector Byte 15) (extra : List Bool), FrameOf s (frameBits (0x11 :: record.toList) extra) →
    let answers := fun (u : State) (code : ResponseCode) =>
      exec (.configure record extra) s
        = .next (u.frameEnded (frameBits (0x11 :: record.toList) extra) { code := code, data := [] })
    (s.member.state ≠ .dormant → s.member.state ≠ .ready → answers s .badState)
    ∧ ((s.member.state = .dormant ∨ s.member.state = .ready) → parseRecord record = none → answers s .badArg)
    ∧ (∀ cfg, s.member.state = .ready → parseRecord record = some cfg →
        ((∃ c : ChannelNo, 0 < s.demand[c]
            ∧ (cfg.channels[c].enabled = false ∨ s.demand[c] < cfg.channels[c].floor))
          ∨ (cfg.lease ≠ 0 ∧ cfg.lease < s.leaseCount)) →
        answers s .badArg)
    ∧ (∀ cfg, parseRecord record = some cfg →
        (s.member.state = .dormant ∨ (s.member.state = .ready
          ∧ (∀ c : ChannelNo, 0 < s.demand[c] →
              cfg.channels[c].enabled = true ∧ cfg.channels[c].floor ≤ s.demand[c])
          ∧ (cfg.lease = 0 ∨ s.leaseCount ≤ cfg.lease))) →
        answers
          { s with
            config := some cfg, member := { s.member with state := .ready }
            notices := { s.notices with hintLow := hintLevel (some cfg) s.notices.queue } } .ok)

/-- The configuration record of R193, byte by byte: which records are in range, and what each field is. -/
def Obligations.ConfigurationRecordLayout : Prop :=
  ∀ r : Vector Byte 15,
    let n := fun (k : Fin 15) => r[k].toNat
    let e := if n 3 % 16 = 0 then 4 else n 3 % 16
    let inRange :=
      1 ≤ n 1 * 256 + n 2 ∧ n 1 * 256 + n 2 ≤ 1023 ∧ 3 ≤ e ∧ (n 4 = 0 ∨ 8 ≤ n 4) ∧ 1 ≤ n 5 ∧ n 5 ≤ 32
        ∧ (1 ≤ n 6 % 32 ∧ 1 ≤ n 7 ∧ n 7 ≤ 64) ∧ (1 ≤ n 8 % 32 ∧ 1 ≤ n 9 ∧ n 9 ≤ 64)
        ∧ (1 ≤ n 10 % 32 ∧ 1 ≤ n 11 ∧ n 11 ≤ 64) ∧ (1 ≤ n 12 % 32 ∧ 1 ≤ n 13 ∧ n 13 ≤ 64)
        ∧ (n 0 + n 1 + n 2 + n 3 + n 4 + n 5 + n 6 + n 7 + n 8 + n 9 + n 10 + n 11 + n 12 + n 13 + n 14) % 256 = 0
    (¬inRange → parseRecord r = none)
    ∧ (inRange → ∃ cfg, parseRecord r = some cfg
        ∧ cfg.station.val = n 0 / 16 ∧ cfg.sliceCode.val = n 0 % 4 ∧ cfg.budget = n 1 * 256 + n 2
        ∧ cfg.expiry = e ∧ cfg.lease = n 4 ∧ cfg.threshold = n 5
        ∧ cfg.channels[0] = { enabled := decide (128 ≤ n 6), weight := n 6 % 32, floor := n 7 }
        ∧ cfg.channels[1] = { enabled := decide (128 ≤ n 8), weight := n 8 % 32, floor := n 9 }
        ∧ cfg.channels[2] = { enabled := decide (128 ≤ n 10), weight := n 10 % 32, floor := n 11 }
        ∧ cfg.channels[3] = { enabled := decide (128 ≤ n 12), weight := n 12 % 32, floor := n 13 })

/-- JOIN in READY takes the station to LISTENING with sequence, listen count, echo-failure count and lease count 0,
the flags clear, the founding wait begun and the line-fault detector on; nothing else changes, and a low keeps whether
it may be a mark (the model's choice, log 23). In any other state it is answered BAD STATE and nothing changes. -/
def Obligations.JoinBeginsListening : Prop :=
  ∀ (s : State) (extra : List Bool), FrameOf s (frameBits [0x21] extra) →
    (s.member.state = .ready →
      exec (.join extra) s = .next (State.frameEnded (frameBits [0x21] extra) { code := .ok, data := [] }
        { s with
          member := {
            state := .listening, listenCount := 0, founding := false, numberInUse := false, newMember := false
            departureCount := 0, restoreCount := 0 }
          line := { s.line with
            sequence := 0, echoFailures := 0, foundingWait := some 0, foundingDue := false
            clearMeasure := none, faultDue := false, faultMeasure := if s.line.lineLow then some 0 else none }
          leaseCount := 0 }))
    ∧ (s.member.state ≠ .ready →
      exec (.join extra) s = .next (s.frameEnded (frameBits [0x21] extra) { code := .badState, data := [] }))

/-- DEPART by the station state. In MEMBER it begins a departure and leaves channels, claim, map and staged set as
they stand; in DEPARTING it is answered OK and the departure continues; in DORMANT and READY it is answered BAD STATE.
In LISTENING, SILENCED or LINE FAULT it takes the station to READY at once: map and roster empty, counts and flags
clear, both sets empty and every pin low, the Line Interface off with its sequence kept; the channels keep state,
demand, streak and wait and hold no span; DEPARTED is issued. Configuration, demands and lease count are kept, and so
are the new-member indication and the record, which are clear and absent there (log 17); that the outputs and the line
go so is R134 (section 6.5) and R138 (section 7.1); that a low which has been a mark may not be one again is the
model's choice (log 23), and a low keeps whether it may. -/
def Obligations.DepartFollowsTheStationState : Prop :=
  ∀ (s : State) (extra : List Bool), FrameOf s (frameBits [0x22] extra) →
    (s.member.state = .member →
      exec (.depart extra) s = .next (State.frameEnded (frameBits [0x22] extra) { code := .ok, data := [] }
        { s with member := { s.member with state := .departing, departureCount := 0, newMember := false } }))
    ∧ (s.member.state = .departing →
      exec (.depart extra) s = .next (s.frameEnded (frameBits [0x22] extra) { code := .ok, data := [] }))
    ∧ ((s.member.state = .dormant ∨ s.member.state = .ready) →
      exec (.depart extra) s = .next (s.frameEnded (frameBits [0x22] extra) { code := .badState, data := [] }))
    ∧ ((s.member.state = .listening ∨ s.member.state = .silenced ∨ s.member.state = .lineFault) → s.config ≠ none →
      ∃ t, exec (.depart extra) s = .next t
        ∧ t.port = (s.frameEnded (frameBits [0x22] extra) { code := .ok, data := [] }).port
        ∧ t.member = { Membership.clear .ready with newMember := s.member.newMember }
        ∧ t.map = [] ∧ t.roster = emptyRoster ∧ t.output = .clear
        ∧ t.line = { LineInterface.reset with
            sequence := s.line.sequence, lineLow := s.line.lineLow, highTime := s.line.highTime
            lowTime := s.line.lowTime, lowMayBeMark := s.line.lowMayBeMark }
        ∧ (∀ c : ChannelNo, t.channel c =
            { s.channel c with held := none, deficit := (s.channel c).demand })
        ∧ t.config = s.config ∧ t.demand = s.demand ∧ t.leaseCount = s.leaseCount ∧ t.rxErrors = s.rxErrors
        ∧ t.claim = s.claim
        ∧ (s.notices.queue.length < 32 →
            t.notices.queue = s.notices.queue ++ [{ kind := .departed, sequence := s.line.sequence }]))

/-- RESTART is answered OK in every state. The station goes to READY if it is configured and to DORMANT if not; every
block takes its reset value, the pins go low at once, no notice is issued and the configuration is kept. The level of
the line and its times go on following the line, and a low keeps whether it may still be a mark (the model's choice,
log 23). -/
def Obligations.RestartKeepsOnlyTheConfiguration : Prop :=
  ∀ (s : State) (extra : List Bool), FrameOf s (frameBits [0x2F] extra) →
    ∃ t, exec (.restart extra) s = .next t
      ∧ t = { State.reset with
          config := s.config
          member := Membership.clear (if s.config.isSome then .ready else .dormant)
          line := { LineInterface.reset with
            lineLow := s.line.lineLow, highTime := s.line.highTime, lowTime := s.line.lowTime
            lowMayBeMark := s.line.lowMayBeMark }
          port := { HostPort.reset with shown := t.port.shown }
          choices := s.choices, pending := s.pending }

/-! ### Demand and lease -/

/-- DEMAND is checked in the order of R157, and the first check that fails gives the response. A refused DEMAND changes
nothing; an accepted one writes the channel's demand and is answered OK. -/
def Obligations.DemandIsCheckedInOrder : Prop :=
  ∀ (s : State) (channel length : Byte) (extra : List Bool), FrameOf s (frameBits [0x31, channel, length] extra) →
    let answers := fun (u : State) (code : ResponseCode) =>
      exec (.demand channel length extra) s
        = .next (u.frameEnded (frameBits [0x31, channel, length] extra) { code := code, data := [] })
    (s.member.state = .dormant → answers s .badState)
    ∧ (∀ cfg, s.member.state ≠ .dormant → s.config = some cfg →
        (3 < channel.toNat → answers s .badArg)
        ∧ ∀ c : ChannelNo, c.val = channel.toNat →
          (cfg.channels[c].enabled = false → answers s .badArg)
          ∧ (64 < length.toNat → answers s .badArg)
          ∧ (length.toNat ≠ 0 → length.toNat < cfg.channels[c].floor → answers s .badArg)
          ∧ (cfg.channels[c].enabled = true → length.toNat ≤ 64 →
              (length.toNat = 0 ∨ cfg.channels[c].floor ≤ length.toNat) →
              answers (s.writeDemand c length.toNat) .ok))

/-- What a demand written to a channel does (R51, R158): the register and the channel's copy take the value; a value
that is the present one leaves the record as it is; at 0 a SEEKING, BLOCKED or BACKOFF channel goes to IDLE with streak
and wait 0; above 0 an IDLE channel goes to SEEKING; every other channel and every other block is unchanged. -/
def Obligations.DemandReachesItsChannel : Prop :=
  ∀ (s : State) (c : ChannelNo) (v : Nat),
    let t := s.writeDemand c v
    let r := s.channel c
    t = { s with demand := t.demand, channels := t.channels }
    ∧ t.demand[c] = v
    ∧ (∀ d : ChannelNo, d ≠ c → t.demand[d] = s.demand[d] ∧ t.channel d = s.channel d)
    ∧ (v = r.demand → t.channel c = r)
    ∧ (v ≠ r.demand →
        let r' := { r with demand := v, deficit := v - heldLength r.held }
        ((r.state = .held ∨ r.state = .claimed) → t.channel c = r')
        ∧ (r.state = .idle → t.channel c = { r' with state := if v = 0 then .idle else .seeking })
        ∧ ((r.state = .seeking ∨ r.state = .blocked ∨ r.state = .backoff) →
            t.channel c = if v = 0 then { r' with state := .idle, streak := 0, wait := 0 } else r'))

/-- RENEW by the table of R161. -/
def Obligations.RenewFollowsItsTable : Prop :=
  ∀ (s : State) (extra : List Bool), FrameOf s (frameBits [0x32] extra) →
    let answers := fun (u : State) (code : ResponseCode) =>
      exec (.renew extra) s = .next (u.frameEnded (frameBits [0x32] extra) { code := code, data := [] })
    ((s.member.state = .dormant ∨ s.member.state = .ready) → answers s .badState)
    ∧ (∀ cfg, s.config = some cfg → s.member.state ≠ .dormant → s.member.state ≠ .ready →
        (cfg.lease = 0 → answers s .ok)
        ∧ (cfg.lease ≠ 0 → s.leaseCount < cfg.lease / 4 → answers (s.issue .earlyRenew) .early)
        ∧ (cfg.lease ≠ 0 → cfg.lease / 4 ≤ s.leaseCount → answers { s with leaseCount := 0 } .ok))

/-! ### Reading -/

/-- STATUS answers OK with the 37 bytes of the status record as the state stands, and then sets the receive error
count to 0; nothing else changes. -/
def Obligations.StatusReturnsTheRecord : Prop :=
  ∀ (s : State) (extra : List Bool), FrameOf s (frameBits [0x41] extra) →
    ∃ data : List Byte,
      exec (.status extra) s = .next (State.frameEnded (frameBits [0x41] extra) { code := .ok, data := data }
        { s with rxErrors := 0 })
      ∧ data.length = 37
      ∧ data[0]? = some (byte s.member.state.code) ∧ data[1]? = some s.line.sequence
      ∧ data[4]? = some (byte s.line.echoFailures) ∧ data[5]? = some (byte s.rxErrors)
      ∧ data[6]? = some (byte s.leaseCount) ∧ data[7]? = some (byte s.notices.queue.length)
      ∧ data[8]? = some (byte s.notices.lost)
      ∧ (∀ st : StationNo,
          (data[3 - st.val / 8]?.getD 0).getLsbD (st.val % 8) = decide (s.roster[st].status = .live))
      ∧ ∀ c : ChannelNo,
          data[9 + 7 * c.val]? = some (byte (s.channel c).state.code)
          ∧ data[10 + 7 * c.val]? = some (byte (s.channel c).demand)
          ∧ ((s.channel c).held = none →
              data[11 + 7 * c.val]? = some 0 ∧ data[12 + 7 * c.val]? = some 0)
          ∧ (∀ sp, (s.channel c).held = some sp →
              data[11 + 7 * c.val]? = some (byte (128 + sp.start.val))
                ∧ data[12 + 7 * c.val]? = some (byte sp.length))
          ∧ data[13 + 7 * c.val]? = some (byte (s.channel c).deficit)
          ∧ data[14 + 7 * c.val]? = some (byte (s.channel c).streak)
          ∧ data[15 + 7 * c.val]? = some (byte (s.channel c).wait)

/-- READ ROSTER: BAD STATE in DORMANT; in every other state the fifteen rows other than the own row, two bytes each, in
ascending station number. Nothing else changes. -/
def Obligations.ReadRosterReturnsThePeerRows : Prop :=
  ∀ (s : State) (extra : List Bool), FrameOf s (frameBits [0x42] extra) →
    (s.member.state = .dormant →
      exec (.readRoster extra) s = .next (s.frameEnded (frameBits [0x42] extra) { code := .badState, data := [] }))
    ∧ ∀ cfg, s.config = some cfg → s.member.state ≠ .dormant →
        ∃ data : List Byte,
          exec (.readRoster extra) s = .next (s.frameEnded (frameBits [0x42] extra) { code := .ok, data := data })
          ∧ data.length = 30
          ∧ ∀ st : StationNo, st ≠ cfg.station →
              let k := if st < cfg.station then 2 * st.val else 2 * st.val - 2
              data[k]? = some (byte (st.val * 16 + s.roster[st].status.code))
              ∧ data[k + 1]? = some (byte (s.roster[st].silence * 16 + bit s.roster[st].heard * 8
                  + bit s.roster[st].accept * 4 + bit s.roster[st].ackForMe * 2 + bit s.roster[st].sentAck))

/-- READ SPANS: a count of 0 or above 8 gives BAD ARG; an empty map gives OK with a count of 0, whatever the index; an
index of n or more gives BAD ARG; otherwise OK with n and min(count, n) entries, the k-th being that at index + k modulo
n. Nothing else changes. -/
def Obligations.ReadSpansSelectsInMapOrder : Prop :=
  ∀ (s : State) (index count : Byte) (extra : List Bool), FrameOf s (frameBits [0x43, index, count] extra) →
    let answers := fun (r : Response) =>
      exec (.readSpans index count extra) s = .next (s.frameEnded (frameBits [0x43, index, count] extra) r)
    let n := s.map.length
    ((count.toNat = 0 ∨ 8 < count.toNat) → answers { code := .badArg, data := [] })
    ∧ (1 ≤ count.toNat → count.toNat ≤ 8 →
        (n = 0 → answers { code := .ok, data := [0] })
        ∧ (1 ≤ n → n ≤ index.toNat → answers { code := .badArg, data := [] })
        ∧ (index.toNat < n →
            ∃ out : List Entry, out.length = min count.toNat n
              ∧ (∀ k, k < min count.toNat n → out[k]? = s.map[(index.toNat + k) % n]?)
              ∧ answers { code := .ok, data := byte n :: out.flatMap entryBytes }))

/-- TAKE NOTICES: a count of 0 or above 8 gives BAD ARG and changes nothing; otherwise OK with the lost count, the
number returned and that many notices from the head, which leave the queue; the lost count becomes 0 and HINT follows.
-/
def Obligations.TakeNoticesFromTheHead : Prop :=
  ∀ (s : State) (count : Byte) (extra : List Bool), FrameOf s (frameBits [0x44, count] extra) →
    ((count.toNat = 0 ∨ 8 < count.toNat) →
      exec (.takeNotices count extra) s
        = .next (s.frameEnded (frameBits [0x44, count] extra) { code := .badArg, data := [] }))
    ∧ (1 ≤ count.toNat → count.toNat ≤ 8 →
        ∃ out rest : List Notice, s.notices.queue = out ++ rest
          ∧ out.length = min count.toNat s.notices.queue.length
          ∧ exec (.takeNotices count extra) s
              = .next (State.frameEnded (frameBits [0x44, count] extra)
                  { code := .ok
                    data := byte s.notices.lost :: byte out.length :: out.flatMap noticeBytes }
                  { s with notices := { queue := rest, lost := 0, hintLow := hintLevel s.config rest } }))

/-! ### Full reset -/

/-- FULL_RESET sets every block to its reset value, with RESET held low. The level of the line and its times go on
following the line (R138, section 7.1), a low keeps whether it may still be a mark (the model's choice, log 23), and
the model's own fields stay (log 15); HCS and HSCK keep their levels, and a low of HCS stands for no frame any more.
RESET_RELEASE lets RESET rise and changes nothing else, so that HSDO stays low on an HCS that is still low (the
model's choice, log 24). While RESET is held low no command and no event inside the part is taken: only the edges of
the line, of HCS and of HSCK are followed (log 19), and every command but the two of the reset pin leaves all else as
it is. -/
def Obligations.FullResetClearsEverything : Prop :=
  ∀ s : State,
    exec .fullReset s = .next
      { config := none
        line := { LineInterface.reset with
          lineLow := s.line.lineLow, highTime := s.line.highTime, lowTime := s.line.lowTime
          lowMayBeMark := s.line.lowMayBeMark }
        rxErrors := 0, map := [], channels := Vector.replicate 4 ChannelRecord.reset, claim := none
        roster := Vector.replicate 16 Row.empty, member := Membership.clear .dormant
        output := OutputSequencer.clear, demand := Vector.replicate 4 0, leaseCount := 0
        notices := { queue := [], lost := 0, hintLow := false }
        port := { HostPort.reset with
          hcs := if s.port.hcs = .high then .high else .ignored, hsck := s.port.hsck, toClock := s.port.toClock }
        resetHeld := true, choices := s.choices, pending := s.pending }
    ∧ exec .resetRelease s = .next { s with resetHeld := false }
    ∧ ∀ i : Instr, s.resetHeld = true → i.wellFormed = true → i ≠ .fullReset → i ≠ .resetRelease →
        ∃ t, exec i s = .next t
          ∧ t = { s with
              line := t.line
              port := { s.port with
                hcs := t.port.hcs, sinceRise := t.port.sinceRise, hsck := t.port.hsck, toClock := t.port.toClock } }
          ∧ ((∀ after, i ≠ .lineRisingEdge after ∧ i ≠ .lineFallingEdge after) →
              (∀ after clock, i ≠ .frameBegin after clock) → t.line = s.line)

/-! ### The Notice Queue -/

/-- A notice joins the tail of the queue with the present cycle sequence while fewer than 32 wait, and the lost count
stays; with 32 waiting it is discarded, the queue stays, and the lost count goes up by 1, to at most 255. HINT is low
afterwards exactly if the fill is at the threshold or an urgent notice waits. No other block changes. -/
def Obligations.FullQueueCountsWhatItLoses : Prop :=
  ∀ (s : State) (kind : NoticeKind),
    let t := s.issue kind
    t = { s with notices := t.notices }
    ∧ (s.notices.queue.length < 32 →
        t.notices.queue = s.notices.queue ++ [{ kind := kind, sequence := s.line.sequence }]
        ∧ t.notices.lost = s.notices.lost)
    ∧ (32 ≤ s.notices.queue.length →
        t.notices.queue = s.notices.queue ∧ t.notices.lost = min 255 (s.notices.lost + 1))
    ∧ (∀ cfg, s.config = some cfg →
        (t.notices.hintLow = true ↔
          cfg.threshold ≤ t.notices.queue.length ∨ ∃ n ∈ t.notices.queue, n.kind = .leaseLapsed
            ∨ n.kind = .silenced ∨ n.kind = .lineFault ∨ ∃ c sp p wc, n.kind = .yielded c sp p wc))

/-! ### Driving marks -/

/-- FOUNDING, CYCLE_TIMER_EXPIRY and DEFERRED_MARK_DRIVE. A station whose mark driver acts drives if the line has been
high for 32 bit times, a low that began less than one bit time ago after such a high included, and waits otherwise
(log 11). Founding, with the window closed: the time missing to two own cycle lengths passes, the founding flag is set
and the driver acts; with the window open the flag is set only where the wait had reached its end as the mark was
taken, and the station drives at the next expiry (R155, section 7.10; log 11). The timer reaches one own cycle length
with the window closed: a driver that is on and idle acts; in LISTENING with the founding flag clear nothing is
driven. A station that waits drives when the line has been high for 32 bit times. The time missing to each moment
passes first, and none if it has gone by (log 2). -/
def Obligations.MarkDriverDrivesOrWaits : Prop :=
  ∀ (cfg : Configuration) (s : State), Running cfg s →
    let may := fun (l : LineInterface) => (l.lineLow = false ∨ l.lowTime < 128) ∧ 4096 ≤ l.highTime
    (∀ w, s.member.state = .listening → s.member.founding = false → s.line.foundingWait = some w →
      (s.line.windowOpen = true → (s.line.foundingDue = true ∨ 2 * ownCycleLength cfg ≤ w) →
        exec .founding s = .next
          { s with member := { s.member with founding := true }, line := { s.line with foundingDue := false } })
      ∧ (s.line.windowOpen = true → s.line.foundingDue = false → w < 2 * ownCycleLength cfg →
        exec .founding s = .next s)
      ∧ (s.line.windowOpen = false →
        let u := s.advance (2 * ownCycleLength cfg - w)
        exec .founding s = .next
          { u with
            member := { s.member with founding := true }
            line := { u.line with
              foundingDue := false, markDriver := if may u.line then .driving 0 else .waiting } }))
    ∧ (∀ now, s.line.cycleTimer = some now → now ≤ ownCycleLength cfg → s.line.windowOpen = false →
      let u := s.advance (ownCycleLength cfg - now)
      ((s.member.state.sends = true ∨ (s.member.state = .listening ∧ s.member.founding = true)) →
        u.line.markDriver = .idle →
        exec .cycleTimerExpiry s = .next
          { u with line := { u.line with markDriver := if may u.line then .driving 0 else .waiting } })
      ∧ (s.member.state = .listening → s.member.founding = false → exec .cycleTimerExpiry s = .next u))
    ∧ (s.drivesMarks = true → s.line.markDriver = .waiting →
      (s.line.lineLow = false →
        let u := s.advance (4096 - s.line.highTime)
        exec .deferredMarkDrive s = .next { u with line := { u.line with markDriver := .driving 0 } })
      ∧ (s.line.lineLow = true → may s.line →
        exec .deferredMarkDrive s = .next { s with line := { s.line with markDriver := .driving 0 } })
      ∧ (s.line.lineLow = true → ¬may s.line → exec .deferredMarkDrive s = .next s))

/-! ### The mark -/

/-- MARK at the Line Interface. A low that began after 32 bit times of high with the window closed is taken as a mark
12 bit times after its falling edge, and so is a mark the station drives itself, which counts from the start of the
drive or from an earlier fall of the line: the timer runs from the falling edge, the window opens, the sequence goes
up by 1 modulo 256, lowest heard is none, and only a mark recognised in LISTENING restarts the founding wait, at 0 as
it is taken (log 11); where the wait had reached two own cycle lengths, the founding is due together with the mark. A
mark taken late, more than 12 bit times after its falling edge, finds the timer at that time (log 2). For a low that
began before JOIN the time counts from JOIN, and that the cycle timer does so too is the model's choice (log 22). The
echo-failure count and the configuration are not changed. -/
def Obligations.MarkStartsANewCycle : Prop :=
  ∀ (cfg : Configuration) (s : State), Running cfg s → s.member.state.onLine = true → s.line.windowOpen = false →
    (∀ since, s.line.lineLow = true → s.line.lowMayBeMark = true → s.line.faultMeasure = some since →
      (∀ e, s.line.markDriver ≠ .driving e) →
      ∃ t, exec .mark s = .next t
        ∧ t.line.cycleTimer = some (max since 1536) ∧ t.line.windowOpen = true
        ∧ t.line.sequence = s.line.sequence + 1 ∧ t.line.lowestHeard = none
        ∧ (t.member.state = .listening → t.line.foundingWait = some 0
            ∧ (t.line.foundingDue = true ↔
                ∃ w, s.line.foundingWait = some w ∧ 2 * ownCycleLength cfg ≤ w + (1536 - since)))
        ∧ t.line.markDriver = .idle
        ∧ t.line.echoFailures = s.line.echoFailures ∧ t.config = s.config)
    ∧ (∀ e, s.line.markDriver = .driving e →
      let since := max e (s.line.faultMeasure.getD 0)
      ∃ t, exec .mark s = .next t
        ∧ t.line.cycleTimer = some (max since 1536) ∧ t.line.windowOpen = true
        ∧ t.line.sequence = s.line.sequence + 1 ∧ t.line.lowestHeard = none
        ∧ (t.member.state = .listening →
            t.line.foundingWait = s.line.foundingWait.map (· + (1536 - since)) ∧ t.line.foundingDue = false)
        ∧ t.line.echoFailures = s.line.echoFailures ∧ t.config = s.config)

/-- MARK at the other blocks. The slice counter is 0 and runs, the active set is a copy of the staged set, and each
pin is high exactly if its channel's staged span covers slice 0. Every row's sent-ack flag takes its accept flag, and
its heard, accept and ack-for-me flags are cleared. A record goes from SENT to DUE. The age of every RESERVED entry,
own or a peer's, goes up by 1, to at most 255; STANDING entries are unchanged, and so are every span, weight, overlap
mark and load. -/
def Obligations.MarkCommitsTheStagedSet : Prop :=
  ∀ (cfg : Configuration) (s : State) (since : Nat) (driven : Bool), Running cfg s →
    markOrigin s = some (since, driven) →
    ∃ t, exec .mark s = .next t
      ∧ t.output.counter = 0 ∧ t.output.running = true ∧ t.output.staged = s.output.staged
      ∧ t.output.active = s.output.staged
      ∧ (∀ c : ChannelNo, t.output.pins[c] = true ↔ ∃ sp, s.output.staged[c] = some sp ∧ sp.covers 0 = true)
      ∧ (∀ p : StationNo, t.roster[p] =
          { s.roster[p] with sentAck := s.roster[p].accept, heard := false, accept := false, ackForMe := false })
      ∧ t.claim = s.claim.map (fun rec => { rec with stage := .due })
      ∧ t.rxErrors = s.rxErrors
      ∧ t.map = s.map.map (fun e =>
          match e.kind with
          | .standing => e
          | .reserved age => { e with kind := .reserved (min 255 (age + 1)) })
      ∧ ∀ k : Slice, load t.map k = load s.map k

/-- A mark at which the lease does not lapse counts every wait above 0 down by 1, and a BACKOFF channel whose wait
reaches 0 goes to SEEKING; nothing else of a channel changes. WAIT_EXPIRY is that whole mark (log 4) where some
BACKOFF channel's wait is 1. A mark at which the lease lapses is in LeaseLapsesAtL. -/
def Obligations.MarkCountsWaitsDown : Prop :=
  ∀ (cfg : Configuration) (s : State) (since : Nat) (driven : Bool), Running cfg s →
    markOrigin s = some (since, driven) → s.leaseCount + 1 ≠ cfg.lease →
    (∃ t, exec .mark s = .next t ∧ ∀ c : ChannelNo,
      t.channel c =
        if (s.channel c).wait = 0 then s.channel c
        else { s.channel c with
          wait := (s.channel c).wait - 1
          state := if (s.channel c).state = .backoff ∧ (s.channel c).wait = 1 then .seeking
            else (s.channel c).state })
    ∧ ∀ c : ChannelNo, (s.channel c).state = .backoff → (s.channel c).wait = 1 →
        ∃ t, exec .waitExpiry s = .next t ∧ exec .mark s = .next t
          ∧ (t.channel c).state = .seeking ∧ (t.channel c).wait = 0
          ∧ (t.channel c).demand = (s.channel c).demand

/-- A LISTENING mark is counted while the count is below E. With the count at E it is the (E + 1)th: JOINED is that
whole mark (log 4), and it takes the station to MEMBER with the listen count 0, the founding flag clear and the
new-member indication set; a JOINED notice carries the sequence of the cycle the mark begins. In the other states a
mark leaves the Membership Controller as it is. -/
def Obligations.ListeningMarksLeadToMember : Prop :=
  ∀ (cfg : Configuration) (s : State) (since : Nat) (driven : Bool), Running cfg s →
    markOrigin s = some (since, driven) →
    (s.member.state = .listening → s.member.listenCount < cfg.expiry →
      ∃ t, exec .mark s = .next t
        ∧ t.member = { s.member with listenCount := s.member.listenCount + 1 })
    ∧ (s.member.state ≠ .listening → ∃ t, exec .mark s = .next t ∧ t.member = s.member)
    ∧ (s.member.state = .listening → cfg.expiry ≤ s.member.listenCount →
      ∃ t, exec .joined s = .next t ∧ exec .mark s = .next t
        ∧ t.member = { s.member with state := .member, listenCount := 0, founding := false, newMember := true }
        ∧ (s.notices.queue.length ≤ 30 →
            { kind := .joined, sequence := s.line.sequence + 1 } ∈ t.notices.queue))

/-- The lease count goes up by 1 at a mark while it is below L and otherwise stays. LEASE_LAPSED is the whole mark
(log 4) that brings it to L: every demand is 0, SEEKING, BLOCKED and BACKOFF channels that had a demand go to IDLE with
streak and wait 0, HELD and CLAIMED channels keep state, span, streak and claim while their wait counts down, and one
LEASE LAPSED notice carries the sequence of the cycle the mark begins. At every other mark the demands stay. -/
def Obligations.LeaseLapsesAtL : Prop :=
  ∀ (cfg : Configuration) (s : State) (since : Nat) (driven : Bool), Running cfg s →
    markOrigin s = some (since, driven) →
    (s.leaseCount + 1 ≠ cfg.lease →
      ∃ t, exec .mark s = .next t ∧ t.demand = s.demand
        ∧ t.leaseCount = if s.leaseCount < cfg.lease then s.leaseCount + 1 else s.leaseCount)
    ∧ (s.leaseCount + 1 = cfg.lease →
      ∃ t, exec .leaseLapsed s = .next t ∧ exec .mark s = .next t
        ∧ t.leaseCount = cfg.lease
        ∧ (∀ c : ChannelNo, t.demand[c] = 0 ∧ (t.channel c).demand = 0
            ∧ ((s.channel c).demand ≠ 0 →
                ((s.channel c).state = .seeking ∨ (s.channel c).state = .blocked
                  ∨ (s.channel c).state = .backoff) →
                (t.channel c).state = .idle ∧ (t.channel c).streak = 0 ∧ (t.channel c).wait = 0)
            ∧ (((s.channel c).state = .held ∨ (s.channel c).state = .claimed ∨ (s.channel c).state = .idle) →
                (t.channel c).state = (s.channel c).state ∧ (t.channel c).held = (s.channel c).held
                ∧ (t.channel c).streak = (s.channel c).streak ∧ (t.channel c).wait = (s.channel c).wait - 1
                ∧ (t.channel c).claimed = (s.channel c).claimed
                ∧ ((s.channel c).demand ≠ 0 → (t.channel c).deficit = 0)))
        ∧ (s.notices.queue.length ≤ 30 →
            { kind := .leaseLapsed, sequence := s.line.sequence + 1 } ∈ t.notices.queue))

/-- A row that names an outcome takes nothing where the event has another outcome: the event it names does not come. The
model's reading of the eight rows, log 4. -/
def Obligations.RowsWithoutTheirOutcomeTakeNothing : Prop :=
  ∀ (cfg : Configuration) (s : State), Running cfg s →
    ((∀ c : ChannelNo, (s.channel c).state = .backoff → (s.channel c).wait ≠ 1) → exec .waitExpiry s = .next s)
    ∧ ((s.member.state ≠ .listening ∨ s.member.listenCount < cfg.expiry) → exec .joined s = .next s)
    ∧ (s.leaseCount + 1 ≠ cfg.lease → exec .leaseLapsed s = .next s)
    ∧ ((s.member.state ≠ .member ∨ s.line.reportSent = true ∨ min 15 (s.line.echoFailures + 1) < cfg.expiry - 1) →
        exec .silenced s = .next s)
    ∧ ((s.member.state ≠ .departing ∨ s.line.reportSent = true ∨ s.member.departureCount ≠ 0
          ∨ min 15 (s.line.echoFailures + 1) < cfg.expiry - 1) → exec .departingEchoClear s = .next s)
    ∧ ((s.member.state ≠ .silenced ∨ s.line.reportSent = false ∨ s.member.restoreCount ≠ 1) →
        exec .restored s = .next s)
    ∧ ((∀ p : StationNo, s.roster[p].status = .live → s.roster[p].heard = true
          ∨ s.roster[p].silence + 1 < cfg.expiry) → exec .peerLost s = .next s)
    ∧ ((s.member.state ≠ .departing ∨ s.member.departureCount ≠ 2) → exec .departed s = .next s)

/-! ### Slice boundaries and pins -/

/-- SLICE_BOUNDARY: a running counter below 63 goes up by 1, once the time missing to that boundary has passed, and
none if it has gone by (log 2), and each pin is high exactly while its channel's active span covers the new slice. At
63, and while the counter does not run, there is no boundary. Nothing else changes. A slice is 16000, 40000, 160000 or
320000 CLK cycles (1, 2.5, 10 or 20 ms), and an own cycle length is 64 of them. -/
def Obligations.SliceBoundaryMovesThePins : Prop :=
  sliceLength 0 = 16000 ∧ sliceLength 1 = 40000 ∧ sliceLength 2 = 160000 ∧ sliceLength 3 = 320000
  ∧ ∀ (cfg : Configuration) (s : State), Running cfg s →
    ownCycleLength cfg = 64 * sliceLength cfg.sliceCode
    ∧ (s.output.running = true → s.output.counter < 63 →
      ∃ pins : PerChannel Bool,
        (∀ c : ChannelNo, pins[c] = true ↔
          ∃ sp, s.output.active[c] = some sp ∧ sp.covers (Fin.ofNat 64 (s.output.counter + 1)) = true)
        ∧ exec .sliceBoundary s = .next
            { s.advanceTimer ((s.output.counter + 1) * sliceLength cfg.sliceCode) with
              output := { s.output with counter := s.output.counter + 1, pins := pins } })
    ∧ ((s.output.running = false ∨ 63 ≤ s.output.counter) → exec .sliceBoundary s = .next s)

/-! ### The own slot -/

/-- OWN_SLOT_START. In a cycle with sequence q the own slot is slot (own number − q) mod 16; slot k begins 32 + 256k
bit times after the falling edge of the mark, and the own-slot-start of every state that takes it is taken there, once
the time missing to it has passed (none if it has gone by, log 2). In MEMBER the report carries the own number and
sequence, the N flag if the indication was set, the ack set of the sent-ack flags, a STANDING item for exactly each
own STANDING entry left, and CLAIM items only for the claims of a new record, whose witnesses are the LIVE rows (which
claims are placed is in OwnSlotStartPlacesClaims). Of the own spans that the yields leave (`y`; which they are is in
SpansYieldToLowerKeys), one with demand 0 is released, and its HELD channel goes to IDLE with streak and wait 0; one
longer than its demand is shortened to it, with the same start, in map, held and staged span alike; every other is
kept as it is. Roster, demands, lease count, active set, pins and configuration are unchanged. -/
def Obligations.MemberReportShowsTheOwnEntries : Prop :=
  (∀ (cfg : Configuration) (q : Sequence) (s : State),
    (ownSlot cfg q).val = (cfg.station.val + 256 - q.toNat) % 16
    ∧ ((ownSlot cfg q).val + q.toNat) % 16 = cfg.station.val
    ∧ ownSlotTime cfg s = (32 + 256 * (ownSlot cfg s.line.sequence).val) * 128)
  ∧ (∀ (cfg : Configuration) (s : State), Running cfg s → s.member.state.onLine = true → s.line.windowOpen = true →
    s.line.slotPhase = .before →
    ∃ t, exec .ownSlotStart s = .next t ∧ t.line.slotPhase = .during ∧ t.line.sequence = s.line.sequence
      ∧ t.line.cycleTimer
        = s.line.cycleTimer.map (fun now => max now ((32 + 256 * (ownSlot cfg s.line.sequence).val) * 128)))
  ∧ ∀ (cfg : Configuration) (s : State), Running cfg s → s.member.state = .member → s.line.windowOpen = true →
    s.line.slotPhase = .before →
    let u := s.advanceTimer (ownSlotTime cfg s)
    let y := applyYields cfg { u with line := { u.line with slotPhase := .during, transmitter := .idle } }
    ∃ t r, exec .ownSlotStart s = .next t ∧ t.line.ownReport = some r
      ∧ r.sender = cfg.station ∧ r.sequence = s.line.sequence ∧ r.newMember = s.member.newMember
      ∧ r.departing = false ∧ (∀ p : StationNo, r.ackSet[p] = s.roster[p].sentAck)
      ∧ (∀ it ∈ r.items, it.weight = cfg.channels[it.channel].weight)
      ∧ (∀ it ∈ r.items, it.kind = .standing → t.ownStanding it.channel = some it.span)
      ∧ (∀ (c : ChannelNo) (sp : Span), t.ownStanding c = some sp →
          ({ kind := .standing, channel := c, span := sp, weight := cfg.channels[c].weight } : Item) ∈ r.items)
      ∧ (∀ it ∈ r.items, it.kind = .claim →
          ∃ rec, t.claim = some rec ∧ (it.channel, it.span) ∈ rec.claims ∧ rec.echo = .pending
            ∧ rec.stage = .sent
            ∧ ∀ p : StationNo, rec.witnesses[p] = decide (s.roster[p].status = .live))
      ∧ (∀ c : ChannelNo, (y.channel c).demand = (s.channel c).demand
          ∧ (y.ownStanding c = none → t.ownStanding c = none)
          ∧ ∀ sp, y.ownStanding c = some sp →
            ((s.channel c).demand = 0 →
              t.ownStanding c = none ∧ t.output.staged[c] = none
              ∧ ((y.channel c).state = .held →
                  t.channel c = { y.channel c with state := .idle, held := none, deficit := 0, streak := 0, wait := 0 }))
            ∧ ((s.channel c).demand ≠ 0 → sp.length ≤ (s.channel c).demand → t.ownStanding c = some sp)
            ∧ ((s.channel c).demand ≠ 0 → (s.channel c).demand < sp.length →
                let shortened : Span := { start := sp.start, length := (s.channel c).demand }
                t.ownStanding c = some shortened ∧ t.output.staged[c] = some shortened
                ∧ (t.channel c).held = some shortened ∧ (t.channel c).deficit = 0))
      ∧ t.line.slotPhase = .during ∧ t.line.transmitter = .idle
      ∧ t.member = { s.member with newMember := false }
      ∧ t.roster = s.roster ∧ t.demand = s.demand ∧ t.leaseCount = s.leaseCount ∧ t.config = s.config
      ∧ t.output.active = s.output.active ∧ t.output.pins = s.output.pins ∧ t.output.counter = s.output.counter

/-- OWN_SLOT_START in MEMBER with no record, or none left by the yields: the placement, after the yields and releases.
The channels are taken in order, each against the map the one before has left (`maps`). A channel that takes part is
SEEKING, BLOCKED, or HELD with a deficit and no wait. Where its search finds a span, its own RESERVED entry of that
span is created at age 0, the channel is CLAIMED with its outstanding claim flag, and the span is one of the record's
claims and a CLAIM item of the report; the record is PENDING and SENT, its witnesses the LIVE rows. Where it finds
none, the map is as it was, a SEEKING channel goes to BLOCKED with NO ROOM, and any other stays. A channel that does
not take part stays, and with no span found there is no record. -/
def Obligations.OwnSlotStartPlacesClaims : Prop :=
  ∀ (cfg : Configuration) (s : State), Running cfg s → HeldInStep s → s.member.state = .member →
    s.line.windowOpen = true → s.line.slotPhase = .before →
    let u := s.advanceTimer (ownSlotTime cfg s)
    let v := applyReleases cfg
      (applyYields cfg { u with line := { u.line with slotPhase := .during, transmitter := .idle } })
    v.claim = none →
    let unmarked := fun (m : List Entry) => m.map (fun e => { e with overlap := false })
    ∃ (t : State) (r : Report) (maps : Nat → List Entry), exec .ownSlotStart s = .next t ∧ t.line.ownReport = some r
      ∧ maps 0 = v.map ∧ maps 4 = t.map
      ∧ ((∀ c : ChannelNo, (t.channel c).state = (v.channel c).state ∨ (t.channel c).state = .blocked) →
          t.claim = none)
      ∧ ∀ c : ChannelNo,
        let before := maps c.val
        let now := maps (c.val + 1)
        let taking := (v.channel c).state = .seeking ∨ (v.channel c).state = .blocked
          ∨ ((v.channel c).state = .held ∧ 0 < (v.channel c).deficit ∧ (v.channel c).wait = 0)
        let found := search cfg before c (v.channel c)
        (¬taking → now = before ∧ t.channel c = v.channel c ∧ ∀ it ∈ r.items, it.kind = .claim → it.channel ≠ c)
        ∧ (taking → found = none →
            now = before ∧ (∀ it ∈ r.items, it.kind = .claim → it.channel ≠ c)
            ∧ ((v.channel c).state ≠ .seeking → t.channel c = v.channel c)
            ∧ ((v.channel c).state = .seeking →
                t.channel c = { v.channel c with state := .blocked }
                ∧ (v.notices.queue.length ≤ 28 →
                    { kind := .noRoom c, sequence := s.line.sequence } ∈ t.notices.queue)))
        ∧ (taking → ∀ sp, found = some sp →
            t.channel c = { v.channel c with state := .claimed, claimed := true }
            ∧ unmarked now
                = unmarked (mapInsert (newEntry cfg.station c (.reserved 0) sp cfg.channels[c].weight) before)
            ∧ (∃ e ∈ t.map, e.owner = cfg.station ∧ e.channel = c ∧ e.kind = .reserved 0 ∧ e.span = sp
                ∧ e.weight = cfg.channels[c].weight)
            ∧ ({ kind := .claim, channel := c, span := sp, weight := cfg.channels[c].weight } : Item) ∈ r.items
            ∧ ∃ rec, t.claim = some rec ∧ (c, sp) ∈ rec.claims ∧ rec.echo = .pending ∧ rec.stage = .sent
              ∧ ∀ p : StationNo, rec.witnesses[p] = decide (s.roster[p].status = .live))

/-- The yield rule. An entry has a winning key exactly if some slice it covers has load above the budget and is
covered by another owner's STANDING entry of lower key, and the winning key is the lowest such key. At OWN_SLOT_START
in MEMBER the own STANDING entries that are marked as it is taken, and whose channel has a demand, are examined in
channel order, each against the map that the yields before it have left (`maps`). One with no winning key is kept. One
with a winning key is given up, and with it the reservation of a CLAIMED channel: its channel goes to BACKOFF with
wait 2, its streak kept, its whole demand as deficit and no claim, its staged span is none, and YIELDED names the
winning key; the pins stay. A CLAIMED channel that yields leaves the outstanding-claim record, whose other claims
stay, and which goes with its last claim; a record that is left is the record afterwards. -/
def Obligations.SpansYieldToLowerKeys : Prop :=
  (∀ (budget : Nat) (m : List Entry) (e : Entry),
    let key := fun (o : StationNo) (c : ChannelNo) => o.val * 4 + c.val
    let wins := fun (f : Entry) => f ∈ m ∧ f.kind = .standing ∧ f.owner ≠ e.owner
      ∧ key f.owner f.channel < key e.owner e.channel
      ∧ ∃ k : Slice, e.span.covers k = true ∧ f.span.covers k = true ∧ budget < load m k
    (winningKey budget m e = none ↔ ∀ f, ¬wins f)
    ∧ ∀ o c, winningKey budget m e = some (o, c) →
        (∃ f, wins f ∧ f.owner = o ∧ f.channel = c) ∧ ∀ f, wins f → key o c ≤ key f.owner f.channel)
  ∧ ∀ (cfg : Configuration) (s : State), Running cfg s → s.member.state = .member →
      s.line.windowOpen = true → s.line.slotPhase = .before →
      let u := s.advanceTimer (ownSlotTime cfg s)
      let y := applyYields cfg { u with line := { u.line with slotPhase := .during, transmitter := .idle } }
      let unmarked := fun (m : List Entry) => m.map (fun e => { e with overlap := false })
      let examined := fun (c : ChannelNo) (e : Entry) =>
        standingOf s.map cfg.station c = some e ∧ e.overlap = true ∧ (s.channel c).demand ≠ 0
      ∃ (t : State) (maps : Nat → List Entry), exec .ownSlotStart s = .next t
        ∧ t.output.active = s.output.active ∧ t.output.pins = s.output.pins
        ∧ maps 0 = s.map ∧ maps 4 = y.map
        ∧ (∀ c : ChannelNo,
          ((∀ e, ¬examined c e) → maps (c.val + 1) = maps c.val ∧ (y.channel c).state = (s.channel c).state)
          ∧ ∀ e, examined c e →
            (winningKey cfg.budget (maps c.val) e = none →
              maps (c.val + 1) = maps c.val ∧ y.ownStanding c = some e.span
              ∧ (y.channel c).state = (s.channel c).state)
            ∧ ∀ o wc, winningKey cfg.budget (maps c.val) e = some (o, wc) →
              unmarked (maps (c.val + 1))
                = unmarked ((maps c.val).filter (fun f => decide (¬(f.owner = cfg.station ∧ f.channel = c
                    ∧ (f.kind = .standing ∨ (s.channel c).state = .claimed)))))
              ∧ t.ownStanding c = none ∧ t.output.staged[c] = none
              ∧ ((s.channel c).state = .claimed → reservedOf t.map cfg.station c = none)
              ∧ t.channel c =
                { state := .backoff, demand := (s.channel c).demand, held := none, deficit := (s.channel c).demand
                  streak := (s.channel c).streak, wait := 2, claimed := false }
              ∧ (s.notices.queue.length ≤ 28 →
                  { kind := .yielded c e.span o wc, sequence := s.line.sequence } ∈ t.notices.queue))
        ∧ (let gone := fun (c : ChannelNo) => (s.channel c).state = .claimed
            ∧ ∃ e, examined c e ∧ winningKey cfg.budget (maps c.val) e ≠ none
          ((∀ c, ¬gone c) → y.claim = s.claim)
          ∧ (∀ rec, s.claim = some rec → (∃ c, gone c) →
            ((∀ p ∈ rec.claims, gone p.1) → y.claim = none)
            ∧ ((∃ p ∈ rec.claims, ¬gone p.1) →
              ∃ left, y.claim = some { rec with claims := left } ∧ left.Sublist rec.claims
                ∧ ∀ p, p ∈ left ↔ p ∈ rec.claims ∧ ¬gone p.1)))
        ∧ (∀ rec, y.claim = some rec → t.claim = some rec)

/-- OWN_SLOT_START outside MEMBER. In DEPARTING a departure report with no items is composed and counted, and the
first leaves no own entry, an empty staged set, no record and every channel SEEKING or IDLE by its demand. In SILENCED
a silent report with no items is composed. In LISTENING no report is. -/
def Obligations.OtherStatesReportNoItems : Prop :=
  ∀ (cfg : Configuration) (s : State), Running cfg s → s.line.windowOpen = true → s.line.slotPhase = .before →
    (s.member.state = .departing →
      ∃ t, exec .ownSlotStart s = .next t
        ∧ t.line.ownReport = some
            { sender := cfg.station, sequence := s.line.sequence, newMember := false, departing := true
              ackSet := ackSet s.roster, items := [] }
        ∧ t.member = { s.member with departureCount := min 2 (s.member.departureCount + 1) }
        ∧ t.roster = s.roster ∧ t.demand = s.demand ∧ t.notices = s.notices
        ∧ t.output.active = s.output.active ∧ t.output.pins = s.output.pins
        ∧ (s.member.departureCount ≠ 0 → t.map = s.map ∧ t.channels = s.channels ∧ t.claim = s.claim)
        ∧ (s.member.departureCount = 0 →
            NoOwnEntry cfg t ∧ t.claim = none
            ∧ ∀ c : ChannelNo, t.output.staged[c] = none
              ∧ t.channel c =
                { state := if (s.channel c).demand = 0 then .idle else .seeking
                  demand := (s.channel c).demand, held := none, deficit := (s.channel c).demand
                  streak := 0, wait := 0, claimed := false }))
    ∧ (s.member.state = .silenced →
      ∃ t, exec .ownSlotStart s = .next t
        ∧ t.line.ownReport = some
            { sender := cfg.station, sequence := s.line.sequence, newMember := false, departing := false
              ackSet := ackSet s.roster, items := [] }
        ∧ t = { s with line := t.line, port := t.port })
    ∧ (s.member.state = .listening →
      ∃ t, exec .ownSlotStart s = .next t ∧ t.line.ownReport = s.line.ownReport
        ∧ t.line.slotPhase = .during ∧ t = { s with line := t.line, port := t.port })

/-- TRANSMIT_START, ECHO_MISMATCH and TRANSMIT_END. At slot bit 4 the composed report is sent, unless the line read
low at a sample of slot bits 0 to 3, in the middle of those bits, and then it is dropped; a sample that coincides with
an edge reads the level before it (log 12). While it is sent, the station pulls the line low exactly in the bits of
value 0. What is read back are the levels read so far, and the line's present level at the samples still to come: at
the middle of the first bit that differs from what was sent the transmitter stops and drives nothing more, and the
report is not sent to its end; if no bit differs, it is idle at the end of the last bit and the whole report was sent,
and it does not stop; a mismatch at another bit than the first does not come (log 5). The time missing to each moment
passes first, and none if it has gone by (log 2). Nothing changes outside the Line Interface but the time. -/
def Obligations.TransmitterStartsStopsAndEnds : Prop :=
  ∀ (cfg : Configuration) (s : State) (r : Report), Running cfg s → s.line.ownReport = some r → r.items.length ≤ 8 →
    (s.member.state.sends = true → s.line.slotPhase = .during → s.line.transmitter = .idle →
      s.line.reportSent = false →
      let u := s.advanceTimer (ownSlotTime cfg s + 4 * 128)
      let lowInLead := ∃ k now, k < 4 ∧ u.line.cycleTimer = some now
        ∧ ownSlotTime cfg s + k * 128 + 64 ≤ now ∧ now < ownSlotTime cfg s + k * 128 + 64 + u.line.lowTime
      ((s.line.heldOff = true ∨ (s.line.lineLow = true ∧ lowInLead)) →
        exec .transmitStart s = .next { u with line := { u.line with ownReport := none, heldOff := true } })
      ∧ (s.line.heldOff = false → (s.line.lineLow = false ∨ ¬lowInLead) →
        exec .transmitStart s = .next
          { u with
            line := { u.line with transmitter := .sending { untilNext := 64, levels := [] }, receiver := .idle } }))
    ∧ ∀ p, s.line.transmitter = .sending p →
      let read := p.levels ++ List.replicate (219 - p.levels.length) (!s.line.lineLow)
      let n := lineLength r.items.length
      let taken := 128 * p.levels.length
      let current := if p.untilNext ≤ 64 then p.levels.length else p.levels.length - 1
      ((∀ e, s.line.markDriver ≠ .driving e) →
        (s.line.drivesLow = true ↔ (lineBits r)[current]? = some false))
      ∧ (∀ k, k < n → read[k]? ≠ (lineBits r)[k]? → (∀ j, j < k → read[j]? = (lineBits r)[j]?) →
        let u := s.advance (p.untilNext + 128 * k - taken)
        let t := { u with line := { u.line with transmitter := .stopped } }
        exec (.echoMismatch k) s = .next t ∧ exec .transmitEnd s = .next s
        ∧ (∀ j, j ≠ k → exec (.echoMismatch j) s = .next s)
        ∧ ((∀ e, t.line.markDriver ≠ .driving e) → t.line.drivesLow = false))
      ∧ ((∀ k, k < n → read[k]? = (lineBits r)[k]?) →
        let u := s.advance (p.untilNext + 128 * n - (64 + taken))
        (∀ j, exec (.echoMismatch j) s = .next s)
        ∧ exec .transmitEnd s = .next { u with line := { u.line with transmitter := .idle, reportSent := true } })

/-- How bits are read off the line, by the receiver and by the transmitter that reads back. The first sample comes
half a bit time after the beginning of the start bit, and each further one a bit time later, so that levels held for a
bit time each are read in their order; time that passes in parts reads what it reads at once. A reading whose first
bit is high began with no start bit, and is dropped. REPORT_ARRIVAL comes at the end of the last bit, half a bit time
after its sample (none missing if it has passed, log 2), with the bits read after the start bit, those still to come
at the line's present level; with no reception there is no arrival, nor one of other bits, and nothing is taken (log
5). -/
def Obligations.BitsAreReadInTheMiddle : Prop :=
  (∀ (p : Sampler) (level : Bool) (n : Nat), n < p.untilNext →
    p.pass n level = { p with untilNext := p.untilNext - n })
  ∧ (∀ (p : Sampler) (level : Bool), p.levels.length < 219 →
    p.pass p.untilNext level = { untilNext := 128, levels := p.levels ++ [level] })
  ∧ (∀ (p : Sampler) (level : Bool) (a b : Nat), p.pass (a + b) level = (p.pass a level).pass b level)
  ∧ (∀ bits : List Bool, bits.length ≤ 219 →
    bits.foldl (fun p b => Sampler.pass 128 b p) { untilNext := 64, levels := [] } = { untilNext := 64, levels := bits })
  ∧ (∀ (s : State) (n : Nat) (slot : Fin 16) (p : Sampler),
    (s.line.transmitter = .sending p → (s.advance n).line.transmitter = .sending (p.pass n (!s.line.lineLow)))
    ∧ (s.line.receiver = .receiving slot p → (s.advance n).line.receiver =
        if (p.pass n (!s.line.lineLow)).levels.head? = some true then .idle
        else .receiving slot (p.pass n (!s.line.lineLow))))
  ∧ ∀ (cfg : Configuration) (s : State), Running cfg s →
    (s.line.receiver = .idle → s.arriving = none)
    ∧ (∀ bits : List Bool, (∀ a, s.arriving = some a → a.bits ≠ bits) → exec (.reportArrival bits) s = .next s)
    ∧ ∀ (slot : Fin 16) (p : Sampler), s.line.receiver = .receiving slot p → s.member.state.onLine = true →
      let read := p.levels ++ List.replicate (219 - p.levels.length) (!s.line.lineLow)
      let rx := receive (read.drop 1)
      let n := lineLength (min rx.count 8)
      (read.head? = some true → s.arriving = none)
      ∧ (read.head? = some false →
          let after := p.untilNext + 128 * n - (64 + 128 * p.levels.length)
          s.arriving = some { slot := slot, bits := (read.take n).drop 1, rx := rx, after := after }
          ∧ ∃ t, exec (.reportArrival ((read.take n).drop 1)) s = .next t
            ∧ t.line = { (s.advance after).line with
                receiver := .idle, slotRead := some slot, lowestHeard := t.line.lowestHeard }
            ∧ t.port = (s.advance after).port)

/-- OWN_SLOT_END is taken at the end of the own slot, 32 + 256(k + 1) bit times after the mark's falling edge for slot
k, once the time missing to it has passed (none if it has gone by, log 2). In MEMBER, DEPARTING and SILENCED the
echo-failure count is set to 0 if the whole report was sent and goes up by 1, to at most 15, if not; in LISTENING
there is no echo result and the count stays. The slot is over, and roster, demands, lease count, sequence, active set
and pins are unchanged. -/
def Obligations.OwnSlotEndCountsEchoes : Prop :=
  ∀ (cfg : Configuration) (s : State), Running cfg s → s.member.state.onLine = true → s.line.slotPhase = .during →
    ∃ t, exec .ownSlotEnd s = .next t
      ∧ t.line.cycleTimer
        = s.line.cycleTimer.map (fun now => max now ((32 + 256 * ((ownSlot cfg s.line.sequence).val + 1)) * 128))
      ∧ (s.member.state.sends = true →
          t.line.echoFailures = if s.line.reportSent then 0 else min 15 (s.line.echoFailures + 1))
      ∧ (s.member.state = .listening → t.line.echoFailures = s.line.echoFailures
          ∧ t = { s with line := t.line, port := t.port })
      ∧ t.line.slotPhase = .after ∧ t.line.transmitter = .idle ∧ t.line.ownReport = none
      ∧ t.line.sequence = s.line.sequence ∧ t.roster = s.roster ∧ t.demand = s.demand
      ∧ t.leaseCount = s.leaseCount ∧ t.config = s.config
      ∧ t.output.active = s.output.active ∧ t.output.pins = s.output.pins

/-- The echo of a claim report, in MEMBER and below the silencing count. A success is written into the record, which
stands. A failure decides the claim at once: the record goes; a channel with a demand loses its reservation, its streak
goes up by 1 and sets its wait to the smaller of the streak and 7, and it goes to HELD if it holds a span and to BACKOFF
if not; its held span is unchanged, and REFUSED is issued with cause ECHO. A channel with no demand is in
WithdrawnClaimsGoWithNoNotice. -/
def Obligations.FailedEchoRefusesTheClaim : Prop :=
  ∀ (cfg : Configuration) (s : State) (rec : ClaimRecord), Running cfg s → s.member.state = .member →
    s.line.slotPhase = .during → s.claim = some rec → rec.stage = .sent →
    (s.line.reportSent = true →
      ∃ t, exec .ownSlotEnd s = .next t ∧ t.claim = some { rec with echo := .success }
        ∧ t.map = s.map ∧ t.channels = s.channels ∧ t.notices = s.notices)
    ∧ (s.line.reportSent = false → min 15 (s.line.echoFailures + 1) + 1 < cfg.expiry →
      ∃ t, exec .ownSlotEnd s = .next t ∧ t.claim = none ∧ t.member = s.member
        ∧ ∀ (c : ChannelNo) (sp : Span), (c, sp) ∈ rec.claims → (s.channel c).claimed = true →
            reservedOf t.map cfg.station c = none
            ∧ t.ownStanding c = s.ownStanding c
            ∧ ((s.channel c).demand ≠ 0 →
                t.channel c =
                  { state := if (s.ownStanding c).isSome then .held else .backoff
                    demand := (s.channel c).demand
                    held := s.ownStanding c
                    deficit := (s.channel c).demand - heldLength (s.ownStanding c)
                    streak := min 255 ((s.channel c).streak + 1)
                    wait := min (min 255 ((s.channel c).streak + 1)) 7
                    claimed := false }
                ∧ ((rec.claims.map Prod.fst).Nodup → s.notices.queue.length ≤ 28 →
                    { kind := .refused c sp .echo, sequence := s.line.sequence } ∈ t.notices.queue)))

/-- Claims that are withdrawn: the record goes, the channel loses its reservation and its outstanding claim flag, goes
to HELD if it holds a span, and if not to IDLE with streak and wait 0, or to SEEKING if it has a demand; and no
GRANTED and no REFUSED is issued for it. So it is in MEMBER for a channel with demand 0, whatever the witnesses say at
the settle point of its DUE record, and at an own-slot-end whose echo failed; and in DEPARTING for every claim of a
record, at a settle point with stage DUE and at an own-slot-end whose echo failed. -/
def Obligations.WithdrawnClaimsGoWithNoNotice : Prop :=
  ∀ (cfg : Configuration) (s : State) (rec : ClaimRecord) (c : ChannelNo) (sp : Span), Running cfg s →
    s.claim = some rec → (rec.claims.map Prod.fst).Nodup → (c, sp) ∈ rec.claims →
    let withdrawn := fun (t : State) =>
      t.claim = none ∧ reservedOf t.map cfg.station c = none ∧ t.ownStanding c = s.ownStanding c
      ∧ t.channel c =
        { state := if (s.ownStanding c).isSome then .held else if (s.channel c).demand = 0 then .idle else .seeking
          demand := (s.channel c).demand, held := s.ownStanding c
          deficit := (s.channel c).demand - heldLength (s.ownStanding c)
          streak := if (s.ownStanding c).isNone ∧ (s.channel c).demand = 0 then 0 else (s.channel c).streak
          wait := if (s.ownStanding c).isNone ∧ (s.channel c).demand = 0 then 0 else (s.channel c).wait
          claimed := false }
      ∧ ∀ n ∈ t.notices.queue, n ∈ s.notices.queue
          ∨ (∀ sp short, n.kind ≠ .granted c sp short) ∧ (∀ sp cause, n.kind ≠ .refused c sp cause)
    (rec.stage = .due → s.line.windowOpen = true → s.roster[cfg.station].status = .absent →
      ((s.member.state = .member ∧ (s.channel c).claimed = true ∧ (s.channel c).demand = 0)
        ∨ (s.member.state = .departing ∧ s.member.departureCount ≠ 2)) →
      ∃ t, exec .settlePoint s = .next t ∧ withdrawn t)
    ∧ (rec.stage = .sent → s.line.slotPhase = .during → s.line.reportSent = false →
      ((s.member.state = .member ∧ (s.channel c).claimed = true ∧ (s.channel c).demand = 0
          ∧ min 15 (s.line.echoFailures + 1) + 1 < cfg.expiry)
        ∨ (s.member.state = .departing
          ∧ (s.member.departureCount ≠ 0 ∨ min 15 (s.line.echoFailures + 1) + 1 < cfg.expiry))) →
      ∃ t, exec .ownSlotEnd s = .next t ∧ withdrawn t)

/-- SILENCED: the whole own-slot-end (log 4) that brings the echo-failure count to E − 1 in MEMBER. The station holds
no own entry and keeps every peer entry, its staged set is empty, it has no record, and each channel is SEEKING or
IDLE by its demand with no span, streak and wait 0; the indication is clear. Active set, pins, roster, demands and
lease count are kept. SILENCED is the last of its notices. Before it, where the own-slot-end ends a claim cycle, each
claim with a demand is REFUSED with cause ECHO; and where it is that of slot 15, at the settle point of a decision
cycle still to be taken, the record is decided first, with its GRANTED or REFUSED notices. Else there is no other
notice. -/
def Obligations.SilencedGivesUpItsSpans : Prop :=
  ∀ (cfg : Configuration) (s : State), Running cfg s → s.member.state = .member → s.line.slotPhase = .during →
    s.line.reportSent = false → cfg.expiry - 1 ≤ min 15 (s.line.echoFailures + 1) →
    ∃ t, exec .silenced s = .next t ∧ exec .ownSlotEnd s = .next t
      ∧ t.member = { s.member with state := .silenced, newMember := false, restoreCount := 0 }
      ∧ t.map = refreshMarks cfg.budget (s.map.filter (fun e => decide (e.owner ≠ cfg.station)))
      ∧ t.claim = none
      ∧ (∀ c : ChannelNo, t.output.staged[c] = none
          ∧ t.channel c =
            { state := if (s.channel c).demand = 0 then .idle else .seeking
              demand := (s.channel c).demand, held := none, deficit := (s.channel c).demand
              streak := 0, wait := 0, claimed := false })
      ∧ t.output.active = s.output.active ∧ t.output.pins = s.output.pins ∧ t.roster = s.roster
      ∧ t.demand = s.demand ∧ t.leaseCount = s.leaseCount
      ∧ (let decided := s.line.windowOpen = true ∧ (ownSlot cfg s.line.sequence).val = 15
        s.notices.queue.length ≤ 16 →
        ∃ before, t.notices.queue = s.notices.queue ++ before ++ [{ kind := .silenced, sequence := s.line.sequence }]
          ∧ ((s.claim = none ∨ ∃ rec, s.claim = some rec ∧ rec.stage = .due ∧ ¬decided) → before = [])
          ∧ ∀ rec, s.claim = some rec → (rec.claims.map Prod.fst).Nodup → ∀ c sp, (c, sp) ∈ rec.claims →
            (s.channel c).claimed = true → (s.channel c).demand ≠ 0 →
            (rec.stage = .sent → { kind := .refused c sp .echo, sequence := s.line.sequence } ∈ before)
            ∧ (rec.stage = .due → decided →
              ((∀ w : StationNo, rec.witnesses[w] = true →
                  s.roster[w].heard = true ∧ s.roster[w].ackForMe = true) → rec.echo = .success →
                { kind := .granted c sp (decide (sp.length < (s.channel c).demand)), sequence := s.line.sequence }
                  ∈ before)
              ∧ ∀ w : StationNo, rec.witnesses[w] = true →
                (s.roster[w].heard = false ∨ s.roster[w].ackForMe = false) →
                (∀ v : StationNo, v < w → rec.witnesses[v] = true →
                  s.roster[v].heard = true ∧ s.roster[v].ackForMe = true) →
                { kind := .refused c sp (if s.roster[w].heard then .notAcked w else .peerUnheard w)
                  sequence := s.line.sequence } ∈ before))

/-- DEPARTING_ECHO_CLEAR: the whole own-slot-end (log 4) that brings the count to E − 1 in DEPARTING, before the first
departure report, gives up every own entry, claim and staged span like a silencing, but the station stays DEPARTING,
its departure count is not changed, and no notice is issued. -/
def Obligations.DepartingStationIsClearedEarly : Prop :=
  ∀ (cfg : Configuration) (s : State), Running cfg s → s.member.state = .departing → s.line.slotPhase = .during →
    s.line.reportSent = false → s.member.departureCount = 0 →
    cfg.expiry - 1 ≤ min 15 (s.line.echoFailures + 1) →
    ∃ t, exec .departingEchoClear s = .next t ∧ exec .ownSlotEnd s = .next t
      ∧ t.member = s.member ∧ t.notices = s.notices
      ∧ t.map = refreshMarks cfg.budget (s.map.filter (fun e => decide (e.owner ≠ cfg.station)))
      ∧ t.claim = none
      ∧ (∀ c : ChannelNo, t.output.staged[c] = none
          ∧ t.channel c =
            { state := if (s.channel c).demand = 0 then .idle else .seeking
              demand := (s.channel c).demand, held := none, deficit := (s.channel c).demand
              streak := 0, wait := 0, claimed := false })
      ∧ t.output.active = s.output.active ∧ t.output.pins = s.output.pins ∧ t.roster = s.roster

/-- In SILENCED with no record, an echo failure sets the restore count to 0 and a first success to 1. RESTORED is the
whole own-slot-end (log 4) with a second success in a row: the station is MEMBER again with the restore count 0 and
the new-member indication set, and RESTORED is issued. Map, channels, sets, pins and roster are kept. -/
def Obligations.TwoEchoesRestoreTheStation : Prop :=
  ∀ (cfg : Configuration) (s : State), Running cfg s → s.member.state = .silenced → s.line.slotPhase = .during →
    s.claim = none →
    (s.line.reportSent = false →
      ∃ t, exec .ownSlotEnd s = .next t ∧ t.member = { s.member with restoreCount := 0 }
        ∧ t = { s with line := t.line, port := t.port, member := t.member })
    ∧ (s.line.reportSent = true → s.member.restoreCount ≠ 1 →
      ∃ t, exec .ownSlotEnd s = .next t ∧ t.member = { s.member with restoreCount := 1 }
        ∧ t = { s with line := t.line, port := t.port, member := t.member })
    ∧ (s.line.reportSent = true → s.member.restoreCount = 1 →
      ∃ t, exec .restored s = .next t ∧ exec .ownSlotEnd s = .next t
        ∧ t.member = { s.member with state := .member, newMember := true, restoreCount := 0 }
        ∧ t = { s with line := t.line, port := t.port, member := t.member, notices := t.notices }
        ∧ (s.notices.queue.length < 32 →
            t.notices.queue = s.notices.queue ++ [{ kind := .restored, sequence := s.line.sequence }]))

/-! ### Arrivals -/

/-- A report is valid exactly if it passes every test of R40: its check is right, its sender is (k + q) mod 16 for its
slot k and its own sequence q, its item count is at most 8, no two items have the same kind and channel, no weight is
0, the D flag goes with no items, and the sender is not the own number. REPORT_ARRIVAL of an invalid report, once the
time to its end has passed (BitsAreReadInTheMiddle): the receive error count goes up by 1, to at most 255, and nothing
changes in the roster, the map, the Claim Engine or lowest heard. A report with a right check and the own number also
restarts the listen count in LISTENING and, once in the period, issues NUMBER IN USE; in the other states it has no
more effect. -/
def Obligations.InvalidReportIsOnlyCounted : Prop :=
  (∀ (own : StationNo) (slot : Fin 16) (rx : Received),
    let r := rx.report
    valid own slot rx = true ↔
      rx.checkOk = true ∧ r.sender.val = (slot.val + r.sequence.toNat) % 16 ∧ rx.count ≤ 8
      ∧ r.items.Pairwise (fun it jt => ¬(it.kind = jt.kind ∧ it.channel = jt.channel))
      ∧ (∀ it ∈ r.items, it.weight ≠ 0) ∧ ¬(r.departing = true ∧ rx.count ≠ 0) ∧ r.sender ≠ own)
  ∧ ∀ (cfg : Configuration) (s : State) (a : Arrival), Running cfg s → s.arriving = some a →
    valid cfg.station a.slot a.rx = false →
    ∃ t, exec (.reportArrival a.bits) s = .next t
      ∧ t = { s with line := t.line, port := t.port, rxErrors := min 255 (s.rxErrors + 1), member := t.member
                     notices := t.notices }
      ∧ t.line = { (s.advance a.after).line with receiver := .idle, slotRead := some a.slot }
      ∧ t.port = (s.advance a.after).port
      ∧ ((a.rx.checkOk = false ∨ a.rx.report.sender ≠ cfg.station
            ∨ s.member.state ≠ .listening) → t.member = s.member ∧ t.notices = s.notices)
      ∧ (a.rx.checkOk = true → a.rx.report.sender = cfg.station →
            s.member.state = .listening →
          t.member = { s.member with listenCount := 0, numberInUse := true }
          ∧ (s.member.numberInUse = true → t.notices = s.notices)
          ∧ (s.member.numberInUse = false → s.notices.queue.length < 32 →
              t.notices.queue = s.notices.queue
                ++ [{ kind := .numberInUse cfg.station, sequence := s.line.sequence }]))

/-- REPORT_ARRIVAL of a valid report at the Roster and the Line Interface. The sender's row goes LIVE, or DEPARTING
with the D flag; a row that stays LIVE keeps its silence count and any other has silence 0; heard is set, ack-for-me
is set if the ack set has the own number and else stays; a report with no CLAIM items is accepted, and one with CLAIM
items by PeerClaimsAreJudgedAllOrNone. No other row changes; an ABSENT row's sender is announced with PEER ARRIVED;
lowest heard takes the lower sequence. No own channel's state, no record and no demand changes, and no error is
counted. -/
def Obligations.ValidReportReachesTheRoster : Prop :=
  ∀ (cfg : Configuration) (s : State) (a : Arrival), Running cfg s → s.arriving = some a →
    valid cfg.station a.slot a.rx = true →
    let r := a.rx.report
    ∃ t, exec (.reportArrival a.bits) s = .next t
      ∧ t.roster[r.sender].status = (if r.departing then .departing else .live)
      ∧ t.roster[r.sender].silence
          = (if s.roster[r.sender].status = .live ∧ r.departing = false then s.roster[r.sender].silence else 0)
      ∧ t.roster[r.sender].heard = true
      ∧ t.roster[r.sender].ackForMe = (s.roster[r.sender].ackForMe || r.ackSet[cfg.station])
      ∧ t.roster[r.sender].sentAck = s.roster[r.sender].sentAck
      ∧ (s.roster[r.sender].accept = true → t.roster[r.sender].accept = true)
      ∧ ((∀ it ∈ r.items, it.kind = .standing) → t.roster[r.sender].accept = true)
      ∧ (∀ p : StationNo, p ≠ r.sender → t.roster[p] = s.roster[p])
      ∧ (s.roster[r.sender].status ≠ .absent → t.notices = s.notices)
      ∧ (s.roster[r.sender].status = .absent → s.notices.queue.length < 32 →
          t.notices.queue
            = s.notices.queue ++ [{ kind := .peerArrived r.sender, sequence := s.line.sequence }])
      ∧ (s.line.lowestHeard = none → t.line.lowestHeard = some r.sequence)
      ∧ (∀ q, s.line.lowestHeard = some q → t.line.lowestHeard = some (if r.sequence < q then r.sequence else q))
      ∧ t.line = { (s.advance a.after).line with
          receiver := .idle, slotRead := some a.slot, lowestHeard := t.line.lowestHeard }
      ∧ t.port = (s.advance a.after).port
      ∧ t.member = s.member ∧ t.claim = s.claim ∧ t.demand = s.demand ∧ t.rxErrors = s.rxErrors
      ∧ t.leaseCount = s.leaseCount ∧ t.config = s.config
      ∧ (∀ c : ChannelNo, (t.channel c).state = (s.channel c).state
          ∧ (t.channel c).streak = (s.channel c).streak ∧ (t.channel c).wait = (s.channel c).wait)
      ∧ t.output.active = s.output.active ∧ t.output.pins = s.output.pins

/-- REPORT_ARRIVAL of a valid report at the Span Map. Every STANDING item becomes the sender's STANDING entry of its
channel, whatever load it causes; a channel with no STANDING item has none; the D flag leaves the sender no entry; the
entries of every other owner keep all but their overlap marks. Of the sender's RESERVED entries, those of age 2 or
more go, and all of them with the N flag of a sender whose row was LIVE; those of age 0 or 1 else stay, age and all;
what stands besides is a CLAIM item of this report, at age 0. -/
def Obligations.ValidReportRecordsStandingItems : Prop :=
  ∀ (cfg : Configuration) (s : State) (a : Arrival), Running cfg s → s.arriving = some a →
    valid cfg.station a.slot a.rx = true →
    let r := a.rx.report
    let unmarked := fun (m : List Entry) =>
      (m.filter (fun e => decide (e.owner ≠ r.sender))).map (fun e => { e with overlap := false })
    ∃ t, exec (.reportArrival a.bits) s = .next t
      ∧ (r.departing = true → ∀ e ∈ t.map, e.owner ≠ r.sender)
      ∧ (r.departing = false → ∀ it ∈ r.items, it.kind = .standing →
          ∃ e, standingOf t.map r.sender it.channel = some e ∧ e.span = it.span ∧ e.weight = it.weight)
      ∧ (∀ c : ChannelNo, (∀ it ∈ r.items, it.kind = .standing → it.channel ≠ c) →
          standingOf t.map r.sender c = none)
      ∧ unmarked t.map = unmarked s.map
      ∧ (let wiped := r.newMember = true ∧ s.roster[r.sender].status = .live
        (∀ e ∈ t.map, e.owner = r.sender → ∀ age, e.kind = .reserved age →
          (age = 0 ∧ ∃ it ∈ r.items, it.kind = .claim ∧ it.channel = e.channel ∧ it.span = e.span
              ∧ it.weight = e.weight)
          ∨ (¬wiped ∧ age ≤ 1 ∧ ∃ f ∈ s.map, { f with overlap := e.overlap } = e))
        ∧ (¬wiped → r.departing = false → ∀ f ∈ s.map, f.owner = r.sender → ∀ age, age ≤ 1 →
            f.kind = .reserved age → ∃ e ∈ t.map, { f with overlap := e.overlap } = e))

/-- A peer's CLAIM items are judged in channel order, all or none. Judging one item more gives no map if the items
before it gave none, if the owner's reservation of its channel of age 0 or 1 stands, or if it does not fit with the
reservations of the items before it; and else it adds a reservation of age 0. So REPORT_ARRIVAL of a valid report
accepts it exactly if the judging, on the map as the first three steps leave it, gives a map: the sender's accept flag
is then set, and is else as it was; an accepted report leaves that map, with a reservation of age 0 for every CLAIM
item, and a rejected one leaves the map of the first three steps. -/
def Obligations.PeerClaimsAreJudgedAllOrNone : Prop :=
  (∀ (budget : Nat) (p : StationNo) (items : List Item) (m : List Entry), judgeClaims budget p [] m = some m
    ∧ ∀ it : Item, judgeClaims budget p (items ++ [it]) m =
      match judgeClaims budget p items m with
      | none => none
      | some m' =>
        if youngReservation m' p it.channel = true ∨ fits m' budget p it.channel it.weight it.span = false then none
        else some (mapInsert (newEntry p it.channel (.reserved 0) it.span it.weight) m'))
  ∧ (∀ (m : List Entry) (p : StationNo) (c : ChannelNo), youngReservation m p c = true ↔
      ∃ e ∈ m, e.owner = p ∧ e.channel = c ∧ ∃ age, age ≤ 1 ∧ e.kind = .reserved age)
  ∧ ∀ (cfg : Configuration) (s : State) (a : Arrival), Running cfg s → s.arriving = some a →
    valid cfg.station a.slot a.rx = true →
    let r := a.rx.report
    let claims := claimItems r.items
    let m := recordReport (decide (s.roster[r.sender].status = .live)) r s.map
    let unmarked := fun (m : List Entry) => m.map (fun e => { e with overlap := false })
    (∀ it : Item, it ∈ claims ↔ it ∈ r.items ∧ it.kind = .claim)
    ∧ claims.Pairwise (fun it jt => it.channel < jt.channel)
    ∧ ∃ t, exec (.reportArrival a.bits) s = .next t
      ∧ (judgeClaims cfg.budget r.sender claims m = none →
          t.roster[r.sender].accept = s.roster[r.sender].accept ∧ unmarked t.map = unmarked m)
      ∧ ∀ m', judgeClaims cfg.budget r.sender claims m = some m' →
          t.roster[r.sender].accept = true
          ∧ (r.departing = false → unmarked t.map = unmarked m')
          ∧ ∀ it ∈ r.items, it.kind = .claim →
              ∃ e ∈ t.map, e.owner = r.sender ∧ e.channel = it.channel ∧ e.kind = .reserved 0 ∧ e.span = it.span
                ∧ e.weight = it.weight

/-! ### The settle point -/

/-- SETTLE_POINT is taken 4128 bit times after the mark's falling edge, once the time missing to it has passed (none
if it has gone by, log 2), and the window closes. At the Roster, where no departure completes: a LIVE row that was
heard has silence 0, one that was not has its silence up by 1, and at E it becomes ABSENT with its sent-ack flag
cleared; a DEPARTING row that was not heard becomes ABSENT likewise; every other row is unchanged. A station whose row
so becomes ABSENT has no entry left in the map, and PEER LOST or PEER LEFT names it. PEER_LOST is the whole settle
point (log 4) that expires a LIVE row. -/
def Obligations.SettlePointTakesTheRoster : Prop :=
  ∀ (cfg : Configuration) (s : State), Running cfg s → s.member.state.onLine = true → s.line.windowOpen = true →
    (s.member.state ≠ .departing ∨ s.member.departureCount ≠ 2) →
    (∃ t, exec .settlePoint s = .next t ∧ t.line.windowOpen = false ∧ t.demand = s.demand
        ∧ t.line.cycleTimer = s.line.cycleTimer.map (fun now => max now (4128 * 128))
        ∧ t.leaseCount = s.leaseCount ∧ t.output.active = s.output.active ∧ t.output.pins = s.output.pins
        ∧ ∀ p : StationNo,
          let row := s.roster[p]
          (row.status = .absent → t.roster[p] = row)
          ∧ (row.status = .live → row.heard = true → t.roster[p] = { row with silence := 0 })
          ∧ (row.status = .live → row.heard = false → row.silence + 1 < cfg.expiry →
              t.roster[p] = { row with silence := row.silence + 1 })
          ∧ (row.status = .live → row.heard = false → cfg.expiry ≤ row.silence + 1 →
              t.roster[p] = { row with status := .absent, silence := 0, sentAck := false })
          ∧ (row.status = .departing → row.heard = true → t.roster[p] = row)
          ∧ (row.status = .departing → row.heard = false →
              t.roster[p] = { row with status := .absent, silence := 0, sentAck := false }))
    ∧ (∀ p : StationNo, p ≠ cfg.station → s.roster[p].status = .departing → s.roster[p].heard = false →
        ∃ t, exec .settlePoint s = .next t ∧ t.roster[p].status = .absent ∧ (∀ e ∈ t.map, e.owner ≠ p)
          ∧ (s.notices.queue.length ≤ 8 →
              ∃ q, ({ kind := .peerLeft p, sequence := q } : Notice) ∈ t.notices.queue))
    ∧ ∀ p : StationNo, p ≠ cfg.station → s.roster[p].status = .live → s.roster[p].heard = false →
        cfg.expiry ≤ s.roster[p].silence + 1 →
        ∃ t, exec .peerLost s = .next t ∧ exec .settlePoint s = .next t
          ∧ t.roster[p].status = .absent ∧ (∀ e ∈ t.map, e.owner ≠ p)
          ∧ (s.notices.queue.length ≤ 8 →
              ∃ q, ({ kind := .peerLost p, sequence := q } : Notice) ∈ t.notices.queue)

/-- SETTLE_POINT at the Claim Engine in MEMBER, with a DUE record whose echo was a success. If every witness was heard
and acknowledged in this cycle, each claim with a demand is granted: its span is the held and the staged span, and the
channel is HELD with streak and wait 0, and GRANTED is issued, its short flag set if the span is shorter than the
demand. If not, each is refused: the held span stays, the streak goes up by 1 and sets the wait, and REFUSED names the
lowest-numbered witness that offends, PEER UNHEARD if it was not heard and NOT ACKED if it was. The record is removed,
and active set and pins stay. -/
def Obligations.GrantNeedsEveryWitness : Prop :=
  ∀ (cfg : Configuration) (s : State) (rec : ClaimRecord), Running cfg s → s.member.state = .member →
    s.line.windowOpen = true → s.claim = some rec → rec.stage = .due → rec.echo = .success →
    (rec.claims.map Prod.fst).Nodup → s.roster[cfg.station].status = .absent →
    ∃ t, exec .settlePoint s = .next t ∧ t.claim = none
      ∧ t.output.active = s.output.active ∧ t.output.pins = s.output.pins ∧ t.demand = s.demand
      ∧ ∀ (c : ChannelNo) (sp : Span), (c, sp) ∈ rec.claims → (s.channel c).claimed = true →
          (s.channel c).demand ≠ 0 →
          ((∀ w : StationNo, rec.witnesses[w] = true →
              s.roster[w].heard = true ∧ s.roster[w].ackForMe = true) →
            t.ownStanding c = some sp ∧ t.output.staged[c] = some sp ∧ reservedOf t.map cfg.station c = none
            ∧ t.channel c =
              { state := .held, demand := (s.channel c).demand, held := some sp
                deficit := (s.channel c).demand - sp.length, streak := 0, wait := 0, claimed := false }
            ∧ (s.notices.queue.length ≤ 8 →
                ∃ q, ({ kind := .granted c sp (decide (sp.length < (s.channel c).demand))
                        sequence := q } : Notice) ∈ t.notices.queue))
          ∧ (∀ w : StationNo, rec.witnesses[w] = true →
              (s.roster[w].heard = false ∨ s.roster[w].ackForMe = false) →
              (∀ v : StationNo, v < w → rec.witnesses[v] = true →
                s.roster[v].heard = true ∧ s.roster[v].ackForMe = true) →
              t.ownStanding c = s.ownStanding c ∧ reservedOf t.map cfg.station c = none
              ∧ (t.channel c).state = (if (s.ownStanding c).isSome then .held else .backoff)
              ∧ (t.channel c).streak = min 255 ((s.channel c).streak + 1)
              ∧ (t.channel c).wait = min (min 255 ((s.channel c).streak + 1)) 7
              ∧ (t.channel c).claimed = false
              ∧ (s.notices.queue.length ≤ 8 →
                  ∃ q, ({ kind := .refused c sp
                            (if s.roster[w].heard then .notAcked w else .peerUnheard w)
                          sequence := q } : Notice) ∈ t.notices.queue))

/-- SETTLE_POINT at the Line Interface: in MEMBER, DEPARTING and SILENCED a lowest-heard sequence below the own one is
adopted, by plain value, and in LISTENING any that differs; SEQUENCE ADOPTED carries the new sequence, and the old and
new. With nothing heard, or nothing to adopt, the sequence stays. It is so too where the settle point completes a
departure, in whichever order the two are taken. -/
def Obligations.SettlePointAdoptsTheSequence : Prop :=
  ∀ (cfg : Configuration) (s : State), Running cfg s → s.member.state.onLine = true → s.line.windowOpen = true →
    ∃ t, exec .settlePoint s = .next t
      ∧ (s.line.lowestHeard = none → t.line.sequence = s.line.sequence)
      ∧ ∀ q, s.line.lowestHeard = some q →
          let adopts := q.toNat < s.line.sequence.toNat ∨ (s.member.state = .listening ∧ q ≠ s.line.sequence)
          (¬adopts → t.line.sequence = s.line.sequence)
          ∧ (adopts → t.line.sequence = q
              ∧ (s.notices.queue.length ≤ 8 →
                  { kind := .sequenceAdopted s.line.sequence q, sequence := q } ∈ t.notices.queue))

/-- DEPARTED: the whole settle point (log 4) taken with the departure count 2 takes the station to READY: map and
roster empty, every count and flag of the Membership Controller but the new-member indication, which is clear in
DEPARTING (log 17), 0 or clear, and the echo-failure count 0; the timer stopped and the window closed, both sets empty
and the pins low. Configuration, demands, lease count and receive error count are kept. -/
def Obligations.SecondDepartureReportCompletes : Prop :=
  ∀ (cfg : Configuration) (s : State), Running cfg s → s.member.state = .departing → s.member.departureCount = 2 →
    s.line.windowOpen = true → s.claim = none →
    ∃ t, exec .departed s = .next t ∧ exec .settlePoint s = .next t
      ∧ t.member =
        { state := .ready, listenCount := 0, founding := false, numberInUse := false
          newMember := s.member.newMember, departureCount := 0, restoreCount := 0 }
      ∧ t.line.echoFailures = 0
      ∧ t.line.cycleTimer = none ∧ t.line.windowOpen = false ∧ t.line.transmitter = .idle
      ∧ t.line.markDriver = .idle ∧ t.line.receiver = .idle
      ∧ t.map = [] ∧ t.roster = emptyRoster ∧ t.output = .clear ∧ t.claim = none
      ∧ t.config = s.config ∧ t.demand = s.demand ∧ t.leaseCount = s.leaseCount ∧ t.rxErrors = s.rxErrors
      ∧ (∀ c : ChannelNo, (t.channel c).state = (s.channel c).state)
      ∧ (s.notices.queue.length ≤ 8 → ∃ q, ({ kind := .departed, sequence := q } : Notice) ∈ t.notices.queue)

/-! ### Line fault, line clear and the edges of the line -/

/-- LINE_FAULT and LINE_CLEAR. In LISTENING, MEMBER, DEPARTING and SILENCED, while the line is low with the measure
running, the time missing to 64 bit times passes, and none if it has gone by (log 2), or the line has risen just as
the measure reached them (log 13); then the fault is taken: the pins go low at once and both sets are empty; map and
roster are empty and no record is left; each channel is SEEKING or IDLE by its demand; every count and flag of the
Membership Controller and the echo-failure count are 0 or clear; the timer stops, the window closes, reception, mark
drive and transmission end; the line-clear measure runs from the entry if the line is high. Sequence, demands, lease
count, receive error count and configuration are kept. LINE_CLEAR in LINE FAULT, once the line has been high for one
own cycle length (the time missing passes, log 2), takes the station to LISTENING with every count and flag clear, the
founding wait begun, the sequence and the lease count kept. -/
def Obligations.LineFaultClearsTheStation : Prop :=
  ∀ (cfg : Configuration) (s : State), Running cfg s →
    (s.member.state.onLine = true → (s.line.faultDue = true ∨ ∃ low, s.line.faultMeasure = some low) →
      ∃ t, exec .lineFault s = .next t
        ∧ (s.line.faultDue = false → ∀ low, s.line.faultMeasure = some low →
            let u := s.advance (8192 - low)
            t.line.lowTime = u.line.lowTime ∧ t.line.highTime = u.line.highTime ∧ t.port = u.port)
        ∧ t.member = Membership.clear .lineFault ∧ t.map = [] ∧ t.roster = emptyRoster ∧ t.claim = none
        ∧ t.output = .clear
        ∧ (∀ c : ChannelNo, t.channel c =
            { state := if (s.channel c).demand = 0 then .idle else .seeking
              demand := (s.channel c).demand, held := none, deficit := (s.channel c).demand
              streak := 0, wait := 0, claimed := false })
        ∧ t.line.cycleTimer = none ∧ t.line.windowOpen = false ∧ t.line.lowestHeard = none
        ∧ t.line.echoFailures = 0 ∧ t.line.receiver = .idle ∧ t.line.markDriver = .idle
        ∧ (∀ p, t.line.transmitter ≠ .sending p) ∧ t.line.sequence = s.line.sequence
        ∧ t.line.clearMeasure = (if s.line.lineLow then none else some 0)
        ∧ (s.line.faultDue = true →
            t.line.highTime = s.line.highTime ∧ t.line.lowTime = s.line.lowTime ∧ t.port = s.port)
        ∧ t.config = s.config ∧ t.demand = s.demand ∧ t.leaseCount = s.leaseCount ∧ t.rxErrors = s.rxErrors
        ∧ (s.notices.queue.length < 32 →
            t.notices.queue = s.notices.queue ++ [{ kind := .lineFault, sequence := s.line.sequence }]
            ∧ t.notices.hintLow = true))
    ∧ ∀ high, s.member.state = .lineFault → s.line.clearMeasure = some high →
      ∃ t, exec .lineClear s = .next t
        ∧ t.member = Membership.clear .listening
        ∧ (let u := s.advance (64 * sliceLength cfg.sliceCode - high)
          t.line = { u.line with
            clearMeasure := none, foundingWait := some 0, foundingDue := false, faultDue := false
            faultMeasure := if s.line.lineLow then some 0 else none }
          ∧ t.port = u.port)
        ∧ t = { s with line := t.line, port := t.port, member := t.member, notices := t.notices }
        ∧ (s.notices.queue.length < 32 →
            t.notices.queue = s.notices.queue ++ [{ kind := .lineClear, sequence := s.line.sequence }])

/-- LINE_FALLING_EDGE and LINE_RISING_EDGE. The time the edge carries passes (log 2), and the level follows in every
state, RESET held low included (log 19). A fall starts the low time, in the states with a detector the line-fault
measure, and stops the line-clear measure; it may be a mark if the line was high for 32 bit times and the window is
closed. It re-times a reception in progress. With the receiver idle and the window open, a reception begins at a fall
in slot bits 0 to 15 of a slot that is read and has had no report, with the line high at the sample before it; the own
slot is read in LISTENING, when the transmitter is held off, and before slot bit 4 (samples at an edge: log 12). A
rise starts the high time, ends the line-fault measure, is a line fault all the same if that had reached 64 bit times,
and in LINE FAULT restarts the line-clear measure; a low that covered a sample of slot bits 0 to 3 of the own slot
before the transmitter starts holds it off. An edge to the level the line already has changes nothing but the time. -/
def Obligations.EdgesFollowTheLine : Prop :=
  ∀ (s : State) (after : Nat),
    let u := s.advance after
    (s.line.lineLow = true → exec (.lineFallingEdge after) s = .next u)
    ∧ (s.line.lineLow = false → exec (.lineRisingEdge after) s = .next u)
    ∧ (s.line.lineLow = false →
      ∃ t, exec (.lineFallingEdge after) s = .next t ∧ t = { u with line := t.line }
        ∧ t.line = { u.line with
            lineLow := true, lowTime := 0, clearMeasure := none
            faultMeasure := if s.member.state.onLine then some 0 else none
            faultDue := false
            lowMayBeMark := !s.line.windowOpen && decide (4096 ≤ s.line.highTime + after)
            receiver := t.line.receiver }
        ∧ (∀ slot p, u.line.receiver = .receiving slot p →
            t.line.receiver = .receiving slot { untilNext := 64, levels := p.levels })
        ∧ (u.line.receiver = .idle →
            ((s.config = none ∨ s.member.state.onLine = false ∨ s.line.windowOpen = false
              ∨ ∀ now, u.line.cycleTimer = some now → now < 4096 ∨ 528384 ≤ now) → t.line.receiver = .idle)
            ∧ ∀ cfg slot pos, s.config = some cfg → s.member.state.onLine = true → s.line.windowOpen = true →
              pos < 32768 → u.line.cycleTimer = some ((32 + 256 * slot.val) * 128 + pos) →
              let reads := slot ≠ ownSlot cfg s.line.sequence ∨ s.member.state = .listening ∨ s.line.heldOff = true
                ∨ (s.line.transmitter = .idle ∧ s.line.reportSent = false ∧ pos < 512)
              t.line.receiver =
                if pos < 2048 ∧ (pos + 64) % 128 < s.line.highTime + after ∧ s.line.slotRead ≠ some slot ∧ reads then
                  .receiving slot { untilNext := 64, levels := [] }
                else .idle))
    ∧ (s.line.lineLow = true →
      ∃ t, exec (.lineRisingEdge after) s = .next t ∧ t = { u with line := t.line }
        ∧ t.line = { u.line with
            lineLow := false, highTime := 0, faultMeasure := none, lowMayBeMark := false
            faultDue := u.line.faultMeasure.any (fun low => decide (8192 ≤ low))
            clearMeasure := if s.member.state = .lineFault then some 0 else u.line.clearMeasure
            heldOff := t.line.heldOff }
        ∧ (t.line.heldOff = true ↔ s.line.heldOff = true
            ∨ ∃ cfg now k, s.config = some cfg ∧ s.member.state.sends = true ∧ s.line.slotPhase = .during
              ∧ s.line.transmitter = .idle ∧ s.line.ownReport ≠ none ∧ s.line.reportSent = false
              ∧ u.line.cycleTimer = some now ∧ k < 4 ∧ ownSlotTime cfg s + k * 128 + 64 ≤ now
              ∧ now < ownSlotTime cfg s + k * 128 + 64 + (s.line.lowTime + after)))

/-! ### What holds of every run -/

/-- The state after reset is coherent. -/
def Obligations.ResetIsCoherent : Prop := Coherent State.reset

/-- Every step from a coherent state leaves a coherent state. That HSDO stays low while HCS is low with no frame in
progress, which is in it, is the model's choice (log 24). -/
def Obligations.EveryStepKeepsCoherence : Prop :=
  ∀ s t : State, Coherent s → step s = .next t → Coherent t

/-- Every step keeps the span map in map order, with no two entries of one kind, owner and channel, whatever else the
state holds. -/
def Obligations.EveryStepKeepsMapOrder : Prop :=
  ∀ s t : State, MapOrdered s.map → step s = .next t → MapOrdered t.map

/-- The configuration changes only by an accepted CONFIGURE, which is taken only in DORMANT and READY, and it is made
invalid only by a full reset. -/
def Obligations.ConfigurationIsFixedOnTheLine : Prop :=
  ∀ (i : Instr) (s t : State), exec i s = .next t → t.config ≠ s.config →
    (i = .fullReset ∧ t.config = none)
    ∨ (∃ record extra cfg, i = .configure record extra ∧ (s.member.state = .dormant ∨ s.member.state = .ready)
        ∧ FrameOf s (frameBits (0x11 :: record.toList) extra) ∧ parseRecord record = some cfg ∧ t.config = some cfg
        ∧ t.port.held = { code := .ok, data := [] })

/-- In a coherent state the own span of a channel enters the staged set only by the grant of one of the claims of a DUE
record at a settle point, or by shortening the span already held to the demand at own-slot-start. -/
def Obligations.StagedSpansComeFromGrantsAndShortenings : Prop :=
  ∀ (i : Instr) (s t : State) (c : ChannelNo) (sp : Span), Coherent s → exec i s = .next t →
    t.output.staged[c] = some sp → s.output.staged[c] ≠ some sp →
    (∃ rec, s.claim = some rec ∧ rec.stage = .due ∧ (c, sp) ∈ rec.claims
        ∧ (i = .settlePoint ∨ i = .peerLost))
    ∨ (i = .ownSlotStart ∧ ∃ held, s.output.staged[c] = some held ∧ sp.start = held.start
        ∧ sp.length < held.length ∧ sp.length = (s.channel c).demand)

/-! ### Placement and the report on the line -/

/-- The load of R6 and the fit test of R7. The load of a slice is the sum over every owner and channel, each once, of
the larger weight among its entries that cover the slice, and 0 where none does. A span covers its start and the
length − 1 slices after it, modulo 64 (R5). A candidate fits exactly when every slice its span covers keeps its load,
without the candidate's own pair, within the budget. -/
def Obligations.FitTestLooksAtEverySlice : Prop :=
  (∀ (m : List Entry) (k : Slice),
    load m k = ∑ o : StationNo, ∑ c : ChannelNo,
      ((m.filter (fun e => decide (e.owner = o ∧ e.channel = c) && e.span.covers k)).map Entry.weight).foldr max 0)
  ∧ ∀ (m : List Entry) (budget : Nat) (o : StationNo) (c : ChannelNo) (w : Nat) (sp : Span),
    (∀ k : Slice, sp.covers k = true ↔ ∃ i, i < sp.length ∧ k.val = (sp.start.val + i) % 64)
    ∧ (fits m budget o c w sp = true ↔
        ∀ k : Slice, sp.covers k = true →
          load (m.filter (fun e => decide (¬(e.owner = o ∧ e.channel = c)))) k + w ≤ budget)

/-- The search of R54 to R56. There are 64 candidate starts, none twice, the held start first if there is one and the
rest in ring order from the preferred start, which is 4 times the station number and 16 times the channel, modulo 64.
The first candidate at which the whole demand fits gives the span. Where there is none, the longest fit at a start is
the greatest length up to the demand that passes the fit test; the first candidate that has the greatest of them gives
the span, if it is at least the floor for a channel that holds no span, and longer than the held span for one that
does; and else none is found. -/
def Obligations.PlacementTriesEveryStart : Prop :=
  (∀ (held : Option Span) (p start : Slice) (m : List Entry) (budget : Nat) (o : StationNo) (c : ChannelNo)
    (w demand : Nat),
    (preferredStart o c).val = (4 * o.val + 16 * c.val) % 64
    ∧ (candidateStarts held p).length = 64 ∧ (candidateStarts held p).Nodup
    ∧ (∀ k : Nat, k < 64 → (candidateStarts none p)[k]? = some (Fin.ofNat 64 (p.val + k)))
    ∧ (∀ sp, held = some sp →
        (candidateStarts held p).head? = some sp.start
        ∧ (candidateStarts held p).tail.Sublist (candidateStarts none p))
    ∧ (let n := longestFit m budget o c w demand start
       n ≤ demand ∧ fits m budget o c w { start := start, length := n } = true
       ∧ ∀ l, l ≤ demand → fits m budget o c w { start := start, length := l } = true → l ≤ n))
  ∧ ∀ (cfg : Configuration) (m : List Entry) (c : ChannelNo) (r : ChannelRecord) (i : Nat) (k : Slice),
    let starts := candidateStarts r.held (preferredStart cfg.station c)
    let whole := fun (k : Slice) =>
      fits m cfg.budget cfg.station c cfg.channels[c].weight { start := k, length := r.demand } = true
    let longest := longestFit m cfg.budget cfg.station c cfg.channels[c].weight r.demand
    starts[i]? = some k →
    (whole k → (∀ j l, j < i → starts[j]? = some l → ¬whole l) →
      search cfg m c r = some { start := k, length := r.demand })
    ∧ ((∀ l : Slice, ¬whole l) → (∀ l : Slice, longest l ≤ longest k) →
      (∀ j l, j < i → starts[j]? = some l → longest l < longest k) →
      search cfg m c r =
        if (r.held = none ∧ cfg.channels[c].floor ≤ longest k)
            ∨ (∃ sp, r.held = some sp ∧ sp.length < longest k) then
          some { start := k, length := longest k }
        else none)

/-- A report on the line. Its n items make 50 + 20n data bits: the fields stand at the places of R191, each most
significant bit first, the ack set from station 15 down, a length as one less; the last 16 are the check, a register
that begins with every bit 1 and takes each bit before them as R191 says. On the line they follow a low start bit and
a high spacer, with a spacer of the other level after each 27 of them, so that the report has the length of the table
of R140 and no run of more than 28 bits at one level. It reads back as itself: a receiver that has read the bits of a
report of at most eight items, each with a length of 1 to 64 and a weight of 0 to 31, comes to the arrival of that
report, with its item count and a right check, whatever the line does after it. -/
def Obligations.ReportReadsBackAsSent : Prop :=
  (checkOf [] = 0xFFFF#16
    ∧ ∀ (bits : List Bool) (b : Bool),
      let reg := checkOf bits
      checkOf (bits ++ [b]) = if reg.getLsbD 15 = !b then (reg <<< 1) ^^^ 0x1021#16 else reg <<< 1)
  ∧ ∀ r : Report,
    (let d := dataBits r
      let n := r.items.length
      let at_ := fun (place width value : Nat) =>
        ∀ k, k < width → d[place + k]? = some (value.testBit (width - 1 - k))
      d.length = 50 + 20 * n
      ∧ at_ 0 4 r.sender.val ∧ at_ 4 8 r.sequence.toNat ∧ d[12]? = some r.newMember ∧ d[13]? = some r.departing
      ∧ (∀ p : StationNo, d[14 + (15 - p.val)]? = some r.ackSet[p]) ∧ at_ 30 4 n
      ∧ (∀ (i : Nat) (it : Item), r.items[i]? = some it →
          let place := 34 + 20 * i
          d[place]? = some (decide (it.kind = .claim)) ∧ at_ (place + 1) 2 it.channel.val
          ∧ at_ (place + 3) 6 it.span.start.val ∧ at_ (place + 9) 6 (it.span.length - 1)
          ∧ at_ (place + 15) 5 it.weight)
      ∧ at_ (34 + 20 * n) 16 (checkOf (d.take (34 + 20 * n))).toNat
      ∧ (∀ i, i < d.length → (lineBits r)[2 + i + i / 27]? = d[i]?)
      ∧ (∀ m, 1 ≤ m → 27 * m < d.length → (lineBits r)[1 + 28 * m]? = (d[27 * m - 1]?).map (!·)))
    ∧ ((lineBits r).length = lineLength r.items.length
      ∧ [0, 1, 2, 3, 4, 5, 6, 7, 8].map lineLength = [53, 74, 95, 116, 136, 157, 178, 199, 219]
      ∧ (lineBits r).take 2 = [false, true]
      ∧ ∀ (n : Nat) (b : Bool), ∃ k, n ≤ k ∧ k ≤ n + 28 ∧ (lineBits r)[k]? ≠ some b)
    ∧ (r.items.length ≤ 8 →
      (∀ it ∈ r.items, 1 ≤ it.span.length ∧ it.span.length ≤ 64 ∧ it.weight < 32) →
      ∀ (s : State) (slot : Fin 16) (p : Sampler), s.member.state.onLine = true →
        s.line.receiver = .receiving slot p →
        lineBits r <+: p.levels ++ List.replicate (219 - p.levels.length) (!s.line.lineLow) →
        ∃ a, s.arriving = some a ∧ a.slot = slot ∧ a.rx = { report := r, count := r.items.length, checkOk := true })
end

