-- ==== Sys2Proof/Laws/State.lean ====
section
/-! SUPPORT. One lemma per field that a shared operation leaves alone, so that no proof unfolds a record update. The
lemmas about what an operation changes are in Laws/Ops.lean. -/

namespace Sys2Proof.Machine

variable (s : State)

/-! ### Time that passes -/

@[simp] theorem advance_config (n : Nat) : (s.advance n).config = s.config := rfl
@[simp] theorem advance_rxErrors (n : Nat) : (s.advance n).rxErrors = s.rxErrors := rfl
@[simp] theorem advance_map (n : Nat) : (s.advance n).map = s.map := rfl
@[simp] theorem advance_channels (n : Nat) : (s.advance n).channels = s.channels := rfl
@[simp] theorem advance_claim (n : Nat) : (s.advance n).claim = s.claim := rfl
@[simp] theorem advance_roster (n : Nat) : (s.advance n).roster = s.roster := rfl
@[simp] theorem advance_member (n : Nat) : (s.advance n).member = s.member := rfl
@[simp] theorem advance_output (n : Nat) : (s.advance n).output = s.output := rfl
@[simp] theorem advance_demand (n : Nat) : (s.advance n).demand = s.demand := rfl
@[simp] theorem advance_leaseCount (n : Nat) : (s.advance n).leaseCount = s.leaseCount := rfl
@[simp] theorem advance_notices (n : Nat) : (s.advance n).notices = s.notices := rfl
@[simp] theorem advance_resetHeld (n : Nat) : (s.advance n).resetHeld = s.resetHeld := rfl
@[simp] theorem advance_choices (n : Nat) : (s.advance n).choices = s.choices := rfl
@[simp] theorem advance_pending (n : Nat) : (s.advance n).pending = s.pending := rfl

/-! ### Time that passes up to a moment -/

@[simp] theorem advanceTo_config (n k : Nat) : (s.advanceTo n k).config = s.config := rfl
@[simp] theorem advanceTo_rxErrors (n k : Nat) : (s.advanceTo n k).rxErrors = s.rxErrors := rfl
@[simp] theorem advanceTo_map (n k : Nat) : (s.advanceTo n k).map = s.map := rfl
@[simp] theorem advanceTo_channels (n k : Nat) : (s.advanceTo n k).channels = s.channels := rfl
@[simp] theorem advanceTo_claim (n k : Nat) : (s.advanceTo n k).claim = s.claim := rfl
@[simp] theorem advanceTo_roster (n k : Nat) : (s.advanceTo n k).roster = s.roster := rfl
@[simp] theorem advanceTo_member (n k : Nat) : (s.advanceTo n k).member = s.member := rfl
@[simp] theorem advanceTo_output (n k : Nat) : (s.advanceTo n k).output = s.output := rfl
@[simp] theorem advanceTo_demand (n k : Nat) : (s.advanceTo n k).demand = s.demand := rfl
@[simp] theorem advanceTo_leaseCount (n k : Nat) : (s.advanceTo n k).leaseCount = s.leaseCount := rfl
@[simp] theorem advanceTo_notices (n k : Nat) : (s.advanceTo n k).notices = s.notices := rfl
@[simp] theorem advanceTo_resetHeld (n k : Nat) : (s.advanceTo n k).resetHeld = s.resetHeld := rfl
@[simp] theorem advanceTo_choices (n k : Nat) : (s.advanceTo n k).choices = s.choices := rfl
@[simp] theorem advanceTo_pending (n k : Nat) : (s.advanceTo n k).pending = s.pending := rfl

/-! ### Time that passes up to a reading of the cycle timer -/

@[simp] theorem advanceTimer_config (n : Nat) : (s.advanceTimer n).config = s.config := by unfold State.advanceTimer; split <;> rfl
@[simp] theorem advanceTimer_rxErrors (n : Nat) : (s.advanceTimer n).rxErrors = s.rxErrors := by unfold State.advanceTimer; split <;> rfl
@[simp] theorem advanceTimer_map (n : Nat) : (s.advanceTimer n).map = s.map := by unfold State.advanceTimer; split <;> rfl
@[simp] theorem advanceTimer_channels (n : Nat) : (s.advanceTimer n).channels = s.channels := by unfold State.advanceTimer; split <;> rfl
@[simp] theorem advanceTimer_claim (n : Nat) : (s.advanceTimer n).claim = s.claim := by unfold State.advanceTimer; split <;> rfl
@[simp] theorem advanceTimer_roster (n : Nat) : (s.advanceTimer n).roster = s.roster := by unfold State.advanceTimer; split <;> rfl
@[simp] theorem advanceTimer_member (n : Nat) : (s.advanceTimer n).member = s.member := by unfold State.advanceTimer; split <;> rfl
@[simp] theorem advanceTimer_output (n : Nat) : (s.advanceTimer n).output = s.output := by unfold State.advanceTimer; split <;> rfl
@[simp] theorem advanceTimer_demand (n : Nat) : (s.advanceTimer n).demand = s.demand := by unfold State.advanceTimer; split <;> rfl
@[simp] theorem advanceTimer_leaseCount (n : Nat) : (s.advanceTimer n).leaseCount = s.leaseCount := by unfold State.advanceTimer; split <;> rfl
@[simp] theorem advanceTimer_notices (n : Nat) : (s.advanceTimer n).notices = s.notices := by unfold State.advanceTimer; split <;> rfl
@[simp] theorem advanceTimer_resetHeld (n : Nat) : (s.advanceTimer n).resetHeld = s.resetHeld := by unfold State.advanceTimer; split <;> rfl
@[simp] theorem advanceTimer_choices (n : Nat) : (s.advanceTimer n).choices = s.choices := by unfold State.advanceTimer; split <;> rfl
@[simp] theorem advanceTimer_pending (n : Nat) : (s.advanceTimer n).pending = s.pending := by unfold State.advanceTimer; split <;> rfl

/-! ### HINT brought up to date -/

@[simp] theorem refreshHint_config : (s.refreshHint).config = s.config := rfl
@[simp] theorem refreshHint_line : (s.refreshHint).line = s.line := rfl
@[simp] theorem refreshHint_rxErrors : (s.refreshHint).rxErrors = s.rxErrors := rfl
@[simp] theorem refreshHint_map : (s.refreshHint).map = s.map := rfl
@[simp] theorem refreshHint_channels : (s.refreshHint).channels = s.channels := rfl
@[simp] theorem refreshHint_claim : (s.refreshHint).claim = s.claim := rfl
@[simp] theorem refreshHint_roster : (s.refreshHint).roster = s.roster := rfl
@[simp] theorem refreshHint_member : (s.refreshHint).member = s.member := rfl
@[simp] theorem refreshHint_output : (s.refreshHint).output = s.output := rfl
@[simp] theorem refreshHint_demand : (s.refreshHint).demand = s.demand := rfl
@[simp] theorem refreshHint_leaseCount : (s.refreshHint).leaseCount = s.leaseCount := rfl
@[simp] theorem refreshHint_port : (s.refreshHint).port = s.port := rfl
@[simp] theorem refreshHint_resetHeld : (s.refreshHint).resetHeld = s.resetHeld := rfl
@[simp] theorem refreshHint_choices : (s.refreshHint).choices = s.choices := rfl
@[simp] theorem refreshHint_pending : (s.refreshHint).pending = s.pending := rfl

/-! ### A notice issued -/

@[simp] theorem issue_config (k : NoticeKind) : (s.issue k).config = s.config := by unfold State.issue; split <;> rfl
@[simp] theorem issue_line (k : NoticeKind) : (s.issue k).line = s.line := by unfold State.issue; split <;> rfl
@[simp] theorem issue_rxErrors (k : NoticeKind) : (s.issue k).rxErrors = s.rxErrors := by unfold State.issue; split <;> rfl
@[simp] theorem issue_map (k : NoticeKind) : (s.issue k).map = s.map := by unfold State.issue; split <;> rfl
@[simp] theorem issue_channels (k : NoticeKind) : (s.issue k).channels = s.channels := by unfold State.issue; split <;> rfl
@[simp] theorem issue_claim (k : NoticeKind) : (s.issue k).claim = s.claim := by unfold State.issue; split <;> rfl
@[simp] theorem issue_roster (k : NoticeKind) : (s.issue k).roster = s.roster := by unfold State.issue; split <;> rfl
@[simp] theorem issue_member (k : NoticeKind) : (s.issue k).member = s.member := by unfold State.issue; split <;> rfl
@[simp] theorem issue_output (k : NoticeKind) : (s.issue k).output = s.output := by unfold State.issue; split <;> rfl
@[simp] theorem issue_demand (k : NoticeKind) : (s.issue k).demand = s.demand := by unfold State.issue; split <;> rfl
@[simp] theorem issue_leaseCount (k : NoticeKind) : (s.issue k).leaseCount = s.leaseCount := by unfold State.issue; split <;> rfl
@[simp] theorem issue_port (k : NoticeKind) : (s.issue k).port = s.port := by unfold State.issue; split <;> rfl
@[simp] theorem issue_resetHeld (k : NoticeKind) : (s.issue k).resetHeld = s.resetHeld := by unfold State.issue; split <;> rfl
@[simp] theorem issue_choices (k : NoticeKind) : (s.issue k).choices = s.choices := by unfold State.issue; split <;> rfl
@[simp] theorem issue_pending (k : NoticeKind) : (s.issue k).pending = s.pending := by unfold State.issue; split <;> rfl

/-! ### A channel record written -/

@[simp] theorem setChannel_config (c : ChannelNo) (r : ChannelRecord) : (s.setChannel c r).config = s.config := rfl
@[simp] theorem setChannel_line (c : ChannelNo) (r : ChannelRecord) : (s.setChannel c r).line = s.line := rfl
@[simp] theorem setChannel_rxErrors (c : ChannelNo) (r : ChannelRecord) : (s.setChannel c r).rxErrors = s.rxErrors := rfl
@[simp] theorem setChannel_map (c : ChannelNo) (r : ChannelRecord) : (s.setChannel c r).map = s.map := rfl
@[simp] theorem setChannel_claim (c : ChannelNo) (r : ChannelRecord) : (s.setChannel c r).claim = s.claim := rfl
@[simp] theorem setChannel_roster (c : ChannelNo) (r : ChannelRecord) : (s.setChannel c r).roster = s.roster := rfl
@[simp] theorem setChannel_member (c : ChannelNo) (r : ChannelRecord) : (s.setChannel c r).member = s.member := rfl
@[simp] theorem setChannel_output (c : ChannelNo) (r : ChannelRecord) : (s.setChannel c r).output = s.output := rfl
@[simp] theorem setChannel_demand (c : ChannelNo) (r : ChannelRecord) : (s.setChannel c r).demand = s.demand := rfl
@[simp] theorem setChannel_leaseCount (c : ChannelNo) (r : ChannelRecord) : (s.setChannel c r).leaseCount = s.leaseCount := rfl
@[simp] theorem setChannel_notices (c : ChannelNo) (r : ChannelRecord) : (s.setChannel c r).notices = s.notices := rfl
@[simp] theorem setChannel_port (c : ChannelNo) (r : ChannelRecord) : (s.setChannel c r).port = s.port := rfl
@[simp] theorem setChannel_resetHeld (c : ChannelNo) (r : ChannelRecord) : (s.setChannel c r).resetHeld = s.resetHeld := rfl
@[simp] theorem setChannel_choices (c : ChannelNo) (r : ChannelRecord) : (s.setChannel c r).choices = s.choices := rfl
@[simp] theorem setChannel_pending (c : ChannelNo) (r : ChannelRecord) : (s.setChannel c r).pending = s.pending := rfl

/-! ### A demand written -/

@[simp] theorem writeDemand_config (c : ChannelNo) (v : Nat) : (s.writeDemand c v).config = s.config := rfl
@[simp] theorem writeDemand_line (c : ChannelNo) (v : Nat) : (s.writeDemand c v).line = s.line := rfl
@[simp] theorem writeDemand_rxErrors (c : ChannelNo) (v : Nat) : (s.writeDemand c v).rxErrors = s.rxErrors := rfl
@[simp] theorem writeDemand_map (c : ChannelNo) (v : Nat) : (s.writeDemand c v).map = s.map := rfl
@[simp] theorem writeDemand_claim (c : ChannelNo) (v : Nat) : (s.writeDemand c v).claim = s.claim := rfl
@[simp] theorem writeDemand_roster (c : ChannelNo) (v : Nat) : (s.writeDemand c v).roster = s.roster := rfl
@[simp] theorem writeDemand_member (c : ChannelNo) (v : Nat) : (s.writeDemand c v).member = s.member := rfl
@[simp] theorem writeDemand_output (c : ChannelNo) (v : Nat) : (s.writeDemand c v).output = s.output := rfl
@[simp] theorem writeDemand_leaseCount (c : ChannelNo) (v : Nat) : (s.writeDemand c v).leaseCount = s.leaseCount := rfl
@[simp] theorem writeDemand_notices (c : ChannelNo) (v : Nat) : (s.writeDemand c v).notices = s.notices := rfl
@[simp] theorem writeDemand_port (c : ChannelNo) (v : Nat) : (s.writeDemand c v).port = s.port := rfl
@[simp] theorem writeDemand_resetHeld (c : ChannelNo) (v : Nat) : (s.writeDemand c v).resetHeld = s.resetHeld := rfl
@[simp] theorem writeDemand_choices (c : ChannelNo) (v : Nat) : (s.writeDemand c v).choices = s.choices := rfl
@[simp] theorem writeDemand_pending (c : ChannelNo) (v : Nat) : (s.writeDemand c v).pending = s.pending := rfl

/-! ### A changed map put into the state -/

@[simp] theorem setMap_config (cfg : Configuration) (m : List Entry) : (s.setMap cfg m).config = s.config := rfl
@[simp] theorem setMap_line (cfg : Configuration) (m : List Entry) : (s.setMap cfg m).line = s.line := rfl
@[simp] theorem setMap_rxErrors (cfg : Configuration) (m : List Entry) : (s.setMap cfg m).rxErrors = s.rxErrors := rfl
@[simp] theorem setMap_claim (cfg : Configuration) (m : List Entry) : (s.setMap cfg m).claim = s.claim := rfl
@[simp] theorem setMap_roster (cfg : Configuration) (m : List Entry) : (s.setMap cfg m).roster = s.roster := rfl
@[simp] theorem setMap_member (cfg : Configuration) (m : List Entry) : (s.setMap cfg m).member = s.member := rfl
@[simp] theorem setMap_demand (cfg : Configuration) (m : List Entry) : (s.setMap cfg m).demand = s.demand := rfl
@[simp] theorem setMap_leaseCount (cfg : Configuration) (m : List Entry) : (s.setMap cfg m).leaseCount = s.leaseCount := rfl
@[simp] theorem setMap_notices (cfg : Configuration) (m : List Entry) : (s.setMap cfg m).notices = s.notices := rfl
@[simp] theorem setMap_port (cfg : Configuration) (m : List Entry) : (s.setMap cfg m).port = s.port := rfl
@[simp] theorem setMap_resetHeld (cfg : Configuration) (m : List Entry) : (s.setMap cfg m).resetHeld = s.resetHeld := rfl
@[simp] theorem setMap_choices (cfg : Configuration) (m : List Entry) : (s.setMap cfg m).choices = s.choices := rfl
@[simp] theorem setMap_pending (cfg : Configuration) (m : List Entry) : (s.setMap cfg m).pending = s.pending := rfl

/-! ### The handshake cleared (R78) -/

@[simp] theorem clearHandshake_config : (s.clearHandshake).config = s.config := rfl
@[simp] theorem clearHandshake_line : (s.clearHandshake).line = s.line := rfl
@[simp] theorem clearHandshake_rxErrors : (s.clearHandshake).rxErrors = s.rxErrors := rfl
@[simp] theorem clearHandshake_map : (s.clearHandshake).map = s.map := rfl
@[simp] theorem clearHandshake_roster : (s.clearHandshake).roster = s.roster := rfl
@[simp] theorem clearHandshake_member : (s.clearHandshake).member = s.member := rfl
@[simp] theorem clearHandshake_output : (s.clearHandshake).output = s.output := rfl
@[simp] theorem clearHandshake_demand : (s.clearHandshake).demand = s.demand := rfl
@[simp] theorem clearHandshake_leaseCount : (s.clearHandshake).leaseCount = s.leaseCount := rfl
@[simp] theorem clearHandshake_notices : (s.clearHandshake).notices = s.notices := rfl
@[simp] theorem clearHandshake_port : (s.clearHandshake).port = s.port := rfl
@[simp] theorem clearHandshake_resetHeld : (s.clearHandshake).resetHeld = s.resetHeld := rfl
@[simp] theorem clearHandshake_choices : (s.clearHandshake).choices = s.choices := rfl
@[simp] theorem clearHandshake_pending : (s.clearHandshake).pending = s.pending := rfl

/-! ### Every own entry removed and the handshake cleared -/

@[simp] theorem clearOwn_config (cfg : Configuration) : (s.clearOwn cfg).config = s.config := rfl
@[simp] theorem clearOwn_line (cfg : Configuration) : (s.clearOwn cfg).line = s.line := rfl
@[simp] theorem clearOwn_rxErrors (cfg : Configuration) : (s.clearOwn cfg).rxErrors = s.rxErrors := rfl
@[simp] theorem clearOwn_roster (cfg : Configuration) : (s.clearOwn cfg).roster = s.roster := rfl
@[simp] theorem clearOwn_member (cfg : Configuration) : (s.clearOwn cfg).member = s.member := rfl
@[simp] theorem clearOwn_demand (cfg : Configuration) : (s.clearOwn cfg).demand = s.demand := rfl
@[simp] theorem clearOwn_leaseCount (cfg : Configuration) : (s.clearOwn cfg).leaseCount = s.leaseCount := rfl
@[simp] theorem clearOwn_notices (cfg : Configuration) : (s.clearOwn cfg).notices = s.notices := rfl
@[simp] theorem clearOwn_port (cfg : Configuration) : (s.clearOwn cfg).port = s.port := rfl
@[simp] theorem clearOwn_resetHeld (cfg : Configuration) : (s.clearOwn cfg).resetHeld = s.resetHeld := rfl
@[simp] theorem clearOwn_choices (cfg : Configuration) : (s.clearOwn cfg).choices = s.choices := rfl
@[simp] theorem clearOwn_pending (cfg : Configuration) : (s.clearOwn cfg).pending = s.pending := rfl

/-! ### An entry to READY -/

@[simp] theorem enterReady_config (cfg : Configuration) : (s.enterReady cfg).config = s.config := by unfold State.enterReady; simp
@[simp] theorem enterReady_rxErrors (cfg : Configuration) : (s.enterReady cfg).rxErrors = s.rxErrors := by unfold State.enterReady; simp
@[simp] theorem enterReady_claim (cfg : Configuration) : (s.enterReady cfg).claim = s.claim := by unfold State.enterReady; simp
@[simp] theorem enterReady_demand (cfg : Configuration) : (s.enterReady cfg).demand = s.demand := by unfold State.enterReady; simp
@[simp] theorem enterReady_leaseCount (cfg : Configuration) : (s.enterReady cfg).leaseCount = s.leaseCount := by unfold State.enterReady; simp
@[simp] theorem enterReady_port (cfg : Configuration) : (s.enterReady cfg).port = s.port := by unfold State.enterReady; simp
@[simp] theorem enterReady_resetHeld (cfg : Configuration) : (s.enterReady cfg).resetHeld = s.resetHeld := by unfold State.enterReady; simp
@[simp] theorem enterReady_choices (cfg : Configuration) : (s.enterReady cfg).choices = s.choices := by unfold State.enterReady; simp
@[simp] theorem enterReady_pending (cfg : Configuration) : (s.enterReady cfg).pending = s.pending := by unfold State.enterReady; simp

/-! ### A report loaded for the transmitter -/

@[simp] theorem load_config (r : Report) : (s.load r).config = s.config := rfl
@[simp] theorem load_rxErrors (r : Report) : (s.load r).rxErrors = s.rxErrors := rfl
@[simp] theorem load_map (r : Report) : (s.load r).map = s.map := rfl
@[simp] theorem load_channels (r : Report) : (s.load r).channels = s.channels := rfl
@[simp] theorem load_claim (r : Report) : (s.load r).claim = s.claim := rfl
@[simp] theorem load_roster (r : Report) : (s.load r).roster = s.roster := rfl
@[simp] theorem load_member (r : Report) : (s.load r).member = s.member := rfl
@[simp] theorem load_output (r : Report) : (s.load r).output = s.output := rfl
@[simp] theorem load_demand (r : Report) : (s.load r).demand = s.demand := rfl
@[simp] theorem load_leaseCount (r : Report) : (s.load r).leaseCount = s.leaseCount := rfl
@[simp] theorem load_notices (r : Report) : (s.load r).notices = s.notices := rfl
@[simp] theorem load_port (r : Report) : (s.load r).port = s.port := rfl
@[simp] theorem load_resetHeld (r : Report) : (s.load r).resetHeld = s.resetHeld := rfl
@[simp] theorem load_choices (r : Report) : (s.load r).choices = s.choices := rfl
@[simp] theorem load_pending (r : Report) : (s.load r).pending = s.pending := rfl

/-! ### An open order chosen -/

@[simp] theorem countChoice_config : (s.countChoice).config = s.config := rfl
@[simp] theorem countChoice_line : (s.countChoice).line = s.line := rfl
@[simp] theorem countChoice_rxErrors : (s.countChoice).rxErrors = s.rxErrors := rfl
@[simp] theorem countChoice_map : (s.countChoice).map = s.map := rfl
@[simp] theorem countChoice_channels : (s.countChoice).channels = s.channels := rfl
@[simp] theorem countChoice_claim : (s.countChoice).claim = s.claim := rfl
@[simp] theorem countChoice_roster : (s.countChoice).roster = s.roster := rfl
@[simp] theorem countChoice_member : (s.countChoice).member = s.member := rfl
@[simp] theorem countChoice_output : (s.countChoice).output = s.output := rfl
@[simp] theorem countChoice_demand : (s.countChoice).demand = s.demand := rfl
@[simp] theorem countChoice_leaseCount : (s.countChoice).leaseCount = s.leaseCount := rfl
@[simp] theorem countChoice_notices : (s.countChoice).notices = s.notices := rfl
@[simp] theorem countChoice_port : (s.countChoice).port = s.port := rfl
@[simp] theorem countChoice_resetHeld : (s.countChoice).resetHeld = s.resetHeld := rfl
@[simp] theorem countChoice_pending : (s.countChoice).pending = s.pending := rfl

/-! ### A frame ended -/

@[simp] theorem frameEnded_config (b : List Bool) (r : Response) : (s.frameEnded b r).config = s.config := rfl
@[simp] theorem frameEnded_line (b : List Bool) (r : Response) : (s.frameEnded b r).line = s.line := rfl
@[simp] theorem frameEnded_rxErrors (b : List Bool) (r : Response) : (s.frameEnded b r).rxErrors = s.rxErrors := rfl
@[simp] theorem frameEnded_map (b : List Bool) (r : Response) : (s.frameEnded b r).map = s.map := rfl
@[simp] theorem frameEnded_channels (b : List Bool) (r : Response) : (s.frameEnded b r).channels = s.channels := rfl
@[simp] theorem frameEnded_claim (b : List Bool) (r : Response) : (s.frameEnded b r).claim = s.claim := rfl
@[simp] theorem frameEnded_roster (b : List Bool) (r : Response) : (s.frameEnded b r).roster = s.roster := rfl
@[simp] theorem frameEnded_member (b : List Bool) (r : Response) : (s.frameEnded b r).member = s.member := rfl
@[simp] theorem frameEnded_output (b : List Bool) (r : Response) : (s.frameEnded b r).output = s.output := rfl
@[simp] theorem frameEnded_demand (b : List Bool) (r : Response) : (s.frameEnded b r).demand = s.demand := rfl
@[simp] theorem frameEnded_leaseCount (b : List Bool) (r : Response) : (s.frameEnded b r).leaseCount = s.leaseCount := rfl
@[simp] theorem frameEnded_notices (b : List Bool) (r : Response) : (s.frameEnded b r).notices = s.notices := rfl
@[simp] theorem frameEnded_resetHeld (b : List Bool) (r : Response) : (s.frameEnded b r).resetHeld = s.resetHeld := rfl
@[simp] theorem frameEnded_choices (b : List Bool) (r : Response) : (s.frameEnded b r).choices = s.choices := rfl
@[simp] theorem frameEnded_pending (b : List Bool) (r : Response) : (s.frameEnded b r).pending = s.pending := rfl

/-! ### The registers of the Line Interface while time passes -/

@[simp] theorem advance_line_windowOpen (n : Nat) : (s.advance n).line.windowOpen = s.line.windowOpen := rfl
@[simp] theorem advance_line_sequence (n : Nat) : (s.advance n).line.sequence = s.line.sequence := rfl
@[simp] theorem advance_line_lowestHeard (n : Nat) : (s.advance n).line.lowestHeard = s.line.lowestHeard := rfl
@[simp] theorem advance_line_echoFailures (n : Nat) : (s.advance n).line.echoFailures = s.line.echoFailures := rfl
@[simp] theorem advance_line_lineLow (n : Nat) : (s.advance n).line.lineLow = s.line.lineLow := rfl
@[simp] theorem advance_line_faultDue (n : Nat) : (s.advance n).line.faultDue = s.line.faultDue := rfl
@[simp] theorem advance_line_lowMayBeMark (n : Nat) : (s.advance n).line.lowMayBeMark = s.line.lowMayBeMark := rfl
@[simp] theorem advance_line_slotPhase (n : Nat) : (s.advance n).line.slotPhase = s.line.slotPhase := rfl
@[simp] theorem advance_line_ownReport (n : Nat) : (s.advance n).line.ownReport = s.line.ownReport := rfl
@[simp] theorem advance_line_reportSent (n : Nat) : (s.advance n).line.reportSent = s.line.reportSent := rfl
@[simp] theorem advance_line_heldOff (n : Nat) : (s.advance n).line.heldOff = s.line.heldOff := rfl
@[simp] theorem advance_line_slotRead (n : Nat) : (s.advance n).line.slotRead = s.line.slotRead := rfl
@[simp] theorem advance_line_transmitter (n : Nat) :
    (s.advance n).line.transmitter = s.line.transmitter.advance n (!s.line.lineLow) := rfl
@[simp] theorem advance_line_receiver (n : Nat) :
    (s.advance n).line.receiver = s.line.receiver.advance n (!s.line.lineLow) := rfl
@[simp] theorem advance_line_foundingDue (n : Nat) :
    (s.advance n).line.foundingDue = (s.line.foundingDue && decide (n = 0)) := rfl

/-! ### The sets, the counter and the pins while the map changes -/

@[simp] theorem setMap_output_counter (cfg : Configuration) (m : List Entry) :
    (s.setMap cfg m).output.counter = s.output.counter := rfl
@[simp] theorem clearOwn_output_counter (cfg : Configuration) : (s.clearOwn cfg).output.counter = s.output.counter := rfl
@[simp] theorem setMap_output_running (cfg : Configuration) (m : List Entry) :
    (s.setMap cfg m).output.running = s.output.running := rfl
@[simp] theorem clearOwn_output_running (cfg : Configuration) : (s.clearOwn cfg).output.running = s.output.running := rfl
@[simp] theorem setMap_output_active (cfg : Configuration) (m : List Entry) :
    (s.setMap cfg m).output.active = s.output.active := rfl
@[simp] theorem clearOwn_output_active (cfg : Configuration) : (s.clearOwn cfg).output.active = s.output.active := rfl
@[simp] theorem setMap_output_pins (cfg : Configuration) (m : List Entry) :
    (s.setMap cfg m).output.pins = s.output.pins := rfl
@[simp] theorem clearOwn_output_pins (cfg : Configuration) : (s.clearOwn cfg).output.pins = s.output.pins := rfl

end Sys2Proof.Machine
end

