-- ==== Sys2Proof/Laws/Map.lean ====
section
/-! SUPPORT. Every operation on the span map keeps its canonical form, MapOrdered (R3, R4), and the empty map has it; and
what the operations leave alone. -/

namespace Sys2Proof.Machine

/-! ### Order -/

theorem mapOrdered_nil : MapOrdered [] := List.Pairwise.nil

theorem reset_mapOrdered : MapOrdered State.reset.map := mapOrdered_nil

/-- Two entries have one rank exactly where they agree in start, owner, channel and kind (R4). -/
theorem rank_eq_iff (e f : Entry) :
    e.rank = f.rank ↔ e.span.start = f.span.start ∧ e.samePlace f = true := by
  have h1 := e.span.start.isLt
  have h2 := f.span.start.isLt
  have h3 := e.owner.isLt
  have h4 := f.owner.isLt
  have h5 := e.channel.isLt
  have h6 := f.channel.isLt
  simp only [Entry.rank, Entry.kindRank, Entry.samePlace, decide_eq_true_eq, Fin.ext_iff]
  cases e.isStanding <;> cases f.isStanding <;> simp <;> omega

theorem mapOrdered_filter (p : Entry → Bool) {m : List Entry} (h : MapOrdered m) : MapOrdered (m.filter p) :=
  h.filter p

/-- A change that keeps rank, owner, channel and kind of every entry keeps the order. -/
theorem mapOrdered_map {f : Entry → Entry} (hr : ∀ e, (f e).rank = e.rank)
    (hp : ∀ e g, (f e).samePlace (f g) = e.samePlace g) {m : List Entry} (h : MapOrdered m) : MapOrdered (m.map f) := by
  refine List.pairwise_map.mpr (h.imp ?_)
  intro a b hab
  rw [hr, hr, hp]
  exact hab

theorem mapOrdered_refreshMarks (budget : Nat) {m : List Entry} (h : MapOrdered m) :
    MapOrdered (refreshMarks budget m) :=
  mapOrdered_map (f := fun e => { e with overlap := overBudget budget m e }) (fun _ => rfl) (fun _ _ => rfl) h

/-- Aging leaves an entry's kind where it stands in map order. -/
theorem age_isStanding (e : Entry) : Entry.isStanding { e with kind := e.kind.age } = e.isStanding := by
  obtain ⟨_, _, kind, _, _, _⟩ := e
  cases kind <;> rfl

theorem mapOrdered_ageEntries {m : List Entry} (h : MapOrdered m) : MapOrdered (ageEntries m) := by
  refine mapOrdered_map (f := fun e => { e with kind := e.kind.age }) ?_ ?_ h
  · intro e
    simp only [Entry.rank, Entry.kindRank, age_isStanding]
  · intro e g
    simp only [Entry.samePlace, age_isStanding]

theorem mem_insertOrdered (e x : Entry) (m : List Entry) : x ∈ insertOrdered e m ↔ x = e ∨ x ∈ m := by
  induction m with
  | nil => simp [insertOrdered]
  | cons f m ih =>
    unfold insertOrdered
    split
    · simp
    · simp only [List.mem_cons, ih]
      tauto

theorem mem_mapInsert (e x : Entry) (m : List Entry) :
    x ∈ mapInsert e m ↔ x = e ∨ (x ∈ m ∧ x.samePlace e = false) := by
  simp [mapInsert, mem_insertOrdered]

/-- Insertion into an ordered map in which no entry has the new entry's place keeps the order. -/
theorem mapOrdered_insertOrdered {e : Entry} {m : List Entry} (h : MapOrdered m)
    (he : ∀ f ∈ m, f.samePlace e = false) : MapOrdered (insertOrdered e m) := by
  have hsym : ∀ f : Entry, e.samePlace f = f.samePlace e := by
    intro f
    simp only [Entry.samePlace, decide_eq_decide]
    constructor <;> rintro ⟨h1, h2, h3⟩ <;> exact ⟨h1.symm, h2.symm, h3.symm⟩
  induction m with
  | nil => simp [insertOrdered, MapOrdered]
  | cons f m ih =>
    have hf := he f (by simp)
    obtain ⟨hfm, hm⟩ := List.pairwise_cons.mp h
    unfold insertOrdered
    split
    · rename_i hlt
      refine List.pairwise_cons.mpr ⟨?_, h⟩
      intro g hg
      rcases List.mem_cons.mp hg with rfl | hg'
      · exact ⟨hlt, by rw [hsym]; exact hf⟩
      · exact ⟨Nat.lt_trans hlt (hfm g hg').1, by rw [hsym]; exact he g hg⟩
    · rename_i hge
      refine List.pairwise_cons.mpr ⟨?_, ih hm (fun g hg => he g (by simp [hg]))⟩
      intro g hg
      rcases (mem_insertOrdered e g m).mp hg with rfl | hg'
      · refine ⟨?_, hf⟩
        have hne : f.rank ≠ g.rank := fun heq => by
          have := ((rank_eq_iff f g).mp heq).2
          rw [hf] at this
          exact absurd this (by decide)
        omega
      · exact hfm g hg'

theorem mapOrdered_mapInsert (e : Entry) {m : List Entry} (h : MapOrdered m) : MapOrdered (mapInsert e m) := by
  refine mapOrdered_insertOrdered (mapOrdered_filter _ h) ?_
  intro f hf
  simpa using (List.mem_filter.mp hf).2

theorem mapOrdered_recordStanding (p : StationNo) (items : List Item) (c : ChannelNo) {m : List Entry}
    (h : MapOrdered m) : MapOrdered (recordStanding p items m c) := by
  unfold recordStanding
  split
  · exact mapOrdered_mapInsert _ h
  · exact mapOrdered_filter _ h

theorem mapOrdered_recordStandingItems (p : StationNo) (items : List Item) {m : List Entry} (h : MapOrdered m) :
    MapOrdered (recordStandingItems p items m) := by
  unfold recordStandingItems
  generalize channelOrder = cs
  induction cs generalizing m with
  | nil => exact h
  | cons c cs ih => exact ih (mapOrdered_recordStanding p items c h)

theorem mapOrdered_judgeClaims {budget : Nat} {p : StationNo} {items : List Item} {m m' : List Entry}
    (h : MapOrdered m) (hj : judgeClaims budget p items m = some m') : MapOrdered m' := by
  induction items generalizing m with
  | nil =>
    obtain rfl : m = m' := by simpa [judgeClaims] using hj
    exact h
  | cons it items ih =>
    unfold judgeClaims at hj
    split at hj
    · exact ih (mapOrdered_mapInsert _ h) hj
    · cases hj

/-- A changed map put into the state is in map order if the change kept it. -/
theorem mapOrdered_setMap (cfg : Configuration) (s : State) {m : List Entry} (h : MapOrdered m) :
    MapOrdered (s.setMap cfg m).map := mapOrdered_refreshMarks cfg.budget h

/-! ### The entry found for a pair -/

/-- Overlap marks do not change which span an owner holds. -/
theorem ownSpan_refreshMarks (cfg : Configuration) (budget : Nat) (m : List Entry) (c : ChannelNo) :
    ownSpan cfg (refreshMarks budget m) c = ownSpan cfg m c := by
  have key : ∀ (f : Entry → Bool) (l : List Entry),
      ((l.map (fun e => { e with overlap := f e })).find?
          (fun e => e.ofPair cfg.station c && e.isStanding)).map Entry.span
        = (l.find? (fun e => e.ofPair cfg.station c && e.isStanding)).map Entry.span := by
    intro f l
    induction l with
    | nil => rfl
    | cons e l ih =>
      simp only [List.map_cons, List.find?_cons]
      have h1 : Entry.ofPair cfg.station c { e with overlap := f e } = e.ofPair cfg.station c := rfl
      have h2 : Entry.isStanding { e with overlap := f e } = e.isStanding := rfl
      rw [h1, h2]
      cases e.ofPair cfg.station c && e.isStanding
      · exact ih
      · rfl
  exact key (overBudget budget m) m

end Sys2Proof.Machine
end

