-- ==== Sys2Proof/Laws/Ops.lean ====
section
/-! SUPPORT. What each shared operation does, said once, for the proofs to cite in place of unfolding it. -/

namespace Sys2Proof.Machine

/-! ### Tables -/

@[simp] theorem mapTable_get {α β : Type} {n : Nat} (f : α → β) (v : Vector α n) (i : Fin n) :
    (mapTable f v)[i] = f v[i] := by
  simp [mapTable]

@[simp] theorem channel_setChannel_same (s : State) (c : ChannelNo) (r : ChannelRecord) :
    (s.setChannel c r).channel c = r := by
  simp [State.setChannel, State.channel]

theorem channel_setChannel_other (s : State) {c d : ChannelNo} (r : ChannelRecord) (h : d ≠ c) :
    (s.setChannel c r).channel d = s.channel d := by
  have : c.val ≠ d.val := fun e => h (Fin.ext e.symm)
  simp [State.setChannel, State.channel, this]

/-! ### Notices -/

/-- A notice joins the tail of a queue with room (R164, R165). -/
theorem issue_queue_room {s : State} (k : NoticeKind) (h : s.notices.queue.length < 32) :
    (s.issue k).notices.queue = s.notices.queue ++ [⟨k, s.line.sequence⟩] := by
  simp [State.issue, State.refreshHint, h]

/-- A notice issued on a full queue is discarded and counted (R168). -/
theorem issue_full {s : State} (k : NoticeKind) (h : ¬s.notices.queue.length < 32) :
    (s.issue k).notices.queue = s.notices.queue ∧ (s.issue k).notices.lost = min 255 (s.notices.lost + 1) := by
  simp [State.issue, State.refreshHint, h]

/-- HINT is right after every notice (R169). -/
theorem issue_hint (s : State) (k : NoticeKind) :
    (s.issue k).notices.hintLow = hintLevel s.config (s.issue k).notices.queue := by
  unfold State.issue
  split <;> rfl

/-! ### The map in the state -/

@[simp] theorem channel_setMap (s : State) (cfg : Configuration) (m : List Entry) (c : ChannelNo) :
    (s.setMap cfg m).channel c = (s.channel c).hold (ownSpan cfg m c) := by
  simp [State.setMap, State.channel]

@[simp] theorem staged_setMap (s : State) (cfg : Configuration) (m : List Entry) (c : ChannelNo) :
    (s.setMap cfg m).output.staged[c] = ownSpan cfg m c := by
  simp [State.setMap]

@[simp] theorem map_setMap (s : State) (cfg : Configuration) (m : List Entry) :
    (s.setMap cfg m).map = refreshMarks cfg.budget m := rfl

/-- After a changed map is put into the state, the own span of a channel is that of the new map. -/
theorem ownStanding_setMap {s : State} {cfg : Configuration} (h : s.config = some cfg) (m : List Entry)
    (c : ChannelNo) : (s.setMap cfg m).ownStanding c = ownSpan cfg m c := by
  simp [State.ownStanding, h, ownSpan_refreshMarks]

/-! ### Clears -/

@[simp] theorem channel_clearHandshake (s : State) (c : ChannelNo) :
    s.clearHandshake.channel c = (s.channel c).clear := by
  simp [State.clearHandshake, State.channel, mapTable]

@[simp] theorem claim_clearHandshake (s : State) : s.clearHandshake.claim = none := rfl

@[simp] theorem claim_clearOwn (s : State) (cfg : Configuration) : (s.clearOwn cfg).claim = none := rfl

/-! ### Frames and events -/

/-- A frame that is in progress is taken at its end, where it began with the bits clocked in so far (R178). -/
theorem endFrame_frameOf {s : State} {bits : List Bool} (h : FrameOf s bits) (taking : State → Taken) :
    endFrame bits taking s =
      (let p := taking { s with port := s.port.endFrame bits }
       { p.1 with port := { p.1.port with held := p.2 } }) := by
  simp [endFrame, HostPort.inFrame, HostPort.clocked, h.1, h.2.1, List.isPrefixOf_iff_prefix.mpr h.2.2]

/-- HCS rising with no frame in progress, or while RESET is held, takes nothing (R176, R189). -/
theorem endFrame_noFrame {s : State} (h : s.resetHeld = true ∨ s.port.hcs ≠ .frame) (bits : List Bool)
    (taking : State → Taken) : endFrame bits taking s = { s with port := s.port.riseIdle } := by
  rcases h with h | h <;> simp [endFrame, HostPort.inFrame, h]

/-- Everything a frame's end can do: HCS rises with no frame, the frame is taken, or it is not the frame in progress. -/
theorem endFrame_cases (s : State) (bits : List Bool) (taking : State → Taken) :
    endFrame bits taking s = { s with port := s.port.riseIdle }
    ∨ endFrame bits taking s = s
    ∨ FrameOf s bits ∧ endFrame bits taking s =
        (let p := taking { s with port := s.port.endFrame bits }
         { p.1 with port := { p.1.port with held := p.2 } }) := by
  by_cases hf : s.resetHeld = true ∨ s.port.hcs ≠ .frame
  · exact .inl (endFrame_noFrame hf bits taking)
  · push Not at hf
    by_cases hp : (s.port.received.flatMap byteBits ++ s.port.partialBits) <+: bits
    · have h : FrameOf s bits := ⟨by simpa using hf.1, hf.2, hp⟩
      exact .inr (.inr ⟨h, endFrame_frameOf h taking⟩)
    · refine .inr (.inl ?_)
      simp [endFrame, HostPort.inFrame, HostPort.clocked, hf.1, hf.2, List.isPrefixOf_iff_prefix, hp]

/-- A frame that changes nothing but the held response leaves frameEnded (R176, R177, R178). -/
theorem endFrame_answer {s : State} {bits : List Bool} (h : FrameOf s bits) (r : Response) :
    endFrame bits (answer r) s = s.frameEnded bits r := by
  rw [endFrame_frameOf h]
  rfl

/-- An event inside a configured part with RESET high is taken. -/
theorem internalEvent_running {cfg : Configuration} {s : State} (h : Running cfg s)
    (taking : Configuration → State → State) : internalEvent s taking = .next (taking cfg s) := by
  simp [internalEvent, h.1, h.2]

/-- An event inside the part gives a next state: its taking, or the state as it was. -/
theorem internalEvent_cases (s : State) (taking : Configuration → State → State) :
    internalEvent s taking = .next s ∨ ∃ cfg, Running cfg s ∧ internalEvent s taking = .next (taking cfg s) := by
  unfold internalEvent
  split
  · exact .inl rfl
  · rename_i hr
    cases hc : s.config with
    | none => exact .inl rfl
    | some cfg => exact .inr ⟨cfg, ⟨by simpa using hr, hc⟩, rfl⟩

/-! ### HSCK (R176, R177) -/

@[simp] theorem clockEdge_held (c b : Bool) (p : HostPort) : (p.clockEdge c b).held = p.held := by
  unfold HostPort.clockEdge HostPort.gather
  split
  · rfl
  · split <;> rfl

@[simp] theorem clockEdge_hcs (c b : Bool) (p : HostPort) : (p.clockEdge c b).hcs = p.hcs := by
  unfold HostPort.clockEdge HostPort.gather
  split
  · rfl
  · split <;> rfl

@[simp] theorem clockEdge_sinceRise (c b : Bool) (p : HostPort) : (p.clockEdge c b).sinceRise = p.sinceRise := by
  unfold HostPort.clockEdge HostPort.gather
  split
  · rfl
  · split <;> rfl

/-- With no frame in progress, and while RESET is low, an edge of HSCK moves nothing but HSCK (R176, R189). -/
theorem clockEdge_uncounted {c : Bool} {p : HostPort} (h : p.hcs ≠ .frame ∨ c = false) (b : Bool) :
    p.clockEdge c b = { p with hsck := !p.hsck } := by
  rcases h with h | h <;> simp [HostPort.clockEdge, HostPort.inFrame, h]

/-- What the edges of HSCK keep, one by one, holds when they have come. -/
theorem runClock_keeps {P : HostPort → Prop} {c : Bool} (edge : ∀ p b, P p → P (p.clockEdge c b))
    (left : ∀ p es, P p → P { p with toClock := es }) :
    ∀ (es : List HsckEdge) (n : Nat) (p : HostPort), P p → P (HostPort.runClock c es n p)
  | [], _, p, h => left p [] h
  | e :: es, n, p, h => by
    unfold HostPort.runClock
    split
    · exact runClock_keeps edge left es _ _ (edge p e.hsdi h)
    · exact left p _ h

@[simp] theorem runClock_held (c : Bool) (es : List HsckEdge) (n : Nat) (p : HostPort) :
    (HostPort.runClock c es n p).held = p.held :=
  runClock_keeps (P := fun q => q.held = p.held) (fun q b h => by simpa using h) (fun _ _ h => h) es n p rfl

@[simp] theorem runClock_hcs (c : Bool) (es : List HsckEdge) (n : Nat) (p : HostPort) :
    (HostPort.runClock c es n p).hcs = p.hcs :=
  runClock_keeps (P := fun q => q.hcs = p.hcs) (fun q b h => by simpa using h) (fun _ _ h => h) es n p rfl

@[simp] theorem runClock_sinceRise (c : Bool) (es : List HsckEdge) (n : Nat) (p : HostPort) :
    (HostPort.runClock c es n p).sinceRise = p.sinceRise :=
  runClock_keeps (P := fun q => q.sinceRise = p.sinceRise) (fun q b h => by simpa using h) (fun _ _ h => h) es n p rfl

/-- With no frame in progress, and while RESET is low, the edges of HSCK that come move nothing but HSCK. -/
theorem runClock_uncounted {c : Bool} {p : HostPort} (h : p.hcs ≠ .frame ∨ c = false) (es : List HsckEdge) (n : Nat) :
    ∃ level left, HostPort.runClock c es n p = { p with hsck := level, toClock := left } :=
  (runClock_keeps (P := fun q => (q.hcs ≠ .frame ∨ c = false) ∧ ∃ level left, q = { p with hsck := level, toClock := left })
    (fun q b hq => by
      obtain ⟨hc, l, r, rfl⟩ := hq
      exact ⟨by simpa using hc, _, _, clockEdge_uncounted hc b⟩)
    (fun q es hq => by
      obtain ⟨hc, l, r, rfl⟩ := hq
      exact ⟨hc, l, es, rfl⟩) es n p ⟨h, p.hsck, p.toClock, rfl⟩).2

@[simp] theorem advance_port_held (s : State) (n : Nat) : (s.advance n).port.held = s.port.held := by
  simp only [State.advance, HostPort.advance, runClock_held]; split <;> rfl

@[simp] theorem advance_port_hcs (s : State) (n : Nat) : (s.advance n).port.hcs = s.port.hcs := by
  simp only [State.advance, HostPort.advance, runClock_hcs]; split <;> rfl

@[simp] theorem feed_held (c : Bool) (es : List HsckEdge) (p : HostPort) : (p.feed c es).held = p.held :=
  runClock_held c _ 0 p

@[simp] theorem feed_hcs (c : Bool) (es : List HsckEdge) (p : HostPort) : (p.feed c es).hcs = p.hcs :=
  runClock_hcs c _ 0 p

/-! ### Sampling (R139) -/

theorem pass_before {n : Nat} {p : Sampler} (h : n < p.untilNext) (level : Bool) :
    p.pass n level = { p with untilNext := p.untilNext - n } := by
  simp [Sampler.pass, h]

@[simp] theorem retime_levels (p : Sampler) : p.retime.levels = p.levels := rfl

@[simp] theorem retime_untilNext (p : Sampler) : p.retime.untilNext = 64 := rfl

@[simp] theorem start_levels : Sampler.start.levels = [] := rfl

/-- Time that passes adds levels behind those read. -/
theorem pass_levels (n : Nat) (level : Bool) (p : Sampler) :
    ∃ k, (p.pass n level).levels = p.levels ++ List.replicate k level := by
  unfold Sampler.pass
  split
  · exact ⟨0, by simp⟩
  · exact ⟨_, rfl⟩

/-- A reception goes on in its slot, or was none. -/
theorem receiver_advance_cases (n : Nat) (level : Bool) (slot : Fin 16) (p : Sampler) :
    Receiver.advance n level (.receiving slot p) = .idle
      ∨ Receiver.advance n level (.receiving slot p) = .receiving slot (p.pass n level) := by
  simp only [Receiver.advance, Receiver.check]
  split
  · exact .inl rfl
  · exact .inr rfl

/-- An arrival comes only of a reception whose first bit is read low (R147). -/
theorem arriving_receiving {s : State} {a : Arrival} (h : s.arriving = some a) :
    s.member.state.onLine = true ∧ ∃ p, s.line.receiver = .receiving a.slot p := by
  unfold State.arriving at h
  split at h
  · cases h
  · rename_i slot p hr
    simp only at h
    split at h
    · rename_i hc
      obtain ⟨h1, -⟩ := Bool.and_eq_true_iff.mp hc
      refine ⟨h1, p, ?_⟩
      rw [hr, ← Option.some.inj h]
    · cases h

end Sys2Proof.Machine
end

