-- ==== Sys2Proof/Tests/Slice0.lean ====
section
/-! SUPPORT. The model's own tests: the well-formedness smoke test, small tests whose expected results come from the
manual's examples or tables, and a witness for the hypotheses of every statement that has some. -/

namespace Sys2Proof.Tests

open Sys2Proof.Machine

/-! ### States for the tests -/

/-- Station 2: slice code 0, budget 30, E 4, L 8, threshold 4, every channel enabled with weight 10 and floor 4. -/
def cfg : Configuration :=
  { station := 2, sliceCode := 0, budget := 30, expiry := 4, lease := 8, threshold := 4
    channels := #v[⟨true, 10, 4⟩, ⟨true, 10, 4⟩, ⟨true, 10, 4⟩, ⟨false, 10, 4⟩] }

/-- Station 2 in a station state, with nothing heard and nothing asked for. -/
def inState (st : StationState) : State :=
  { State.reset with config := some cfg, member := Membership.clear st }

/-- A frame has begun, and nothing has been clocked in. -/
def framed (s : State) : State := { s with port := s.port.beginFrame }

/-- HSCK clocks these bits in at once: a rise at which HSDI has the bit, and a fall, for each. -/
def clockBits (bits : List Bool) : List HsckEdge :=
  bits.flatMap fun b => [{ after := 0, hsdi := b }, { after := 0, hsdi := b }]

/-- A cycle runs, and its window is open. -/
def windowed (s : State) : State := { s with line := { s.line with cycleTimer := some 2000, windowOpen := true } }

/-- The own slot has begun. -/
def inSlot (s : State) : State := { s with line := { s.line with slotPhase := .during } }

/-- The whole own report was sent. -/
def sent (s : State) : State := { s with line := { s.line with reportSent := true } }

/-- The own slots before failed their echo `n` times in a row. -/
def failed (n : Nat) (s : State) : State := { s with line := { s.line with echoFailures := n } }

/-- A low that may be a mark began 12 bit times ago. -/
def lowLine (s : State) : State :=
  { s with line := { s.line with lineLow := true, lowMayBeMark := true, faultMeasure := some 1536 } }

/-- The bits of a report have been read in slot 3, and its last bit time ends in half a bit time. -/
def receiving (bits : List Bool) (s : State) : State :=
  { windowed s with line := { (windowed s).line with receiver := .receiving 3 { untilNext := 128, levels := bits } } }

/-- Channel 0 with a record of its own. -/
def withChannel (r : ChannelRecord) (s : State) : State :=
  { s.setChannel 0 r with demand := s.demand.set 0 r.demand }

/-- Channel 0 holds (8, 16), with a demand. -/
def holding (demand : Nat) (s : State) : State :=
  (withChannel { ChannelRecord.reset with state := .held, demand := demand } s).setMap cfg
    [newEntry 2 0 .standing ⟨8, 16⟩ 10]

/-- A record with one claim, of (8, 16) for channel 0, and station 5 its only witness. -/
def record (stage : ClaimStage) (echo : EchoResult) : ClaimRecord :=
  { claims := [(0, ⟨8, 16⟩)], witnesses := (Vector.replicate 16 false).set 5 true, echo := echo, stage := stage }

/-- Channel 0 waits for the decision of its first claim. -/
def claiming (stage : ClaimStage) (echo : EchoResult) (s : State) : State :=
  { (withChannel { ChannelRecord.reset with state := .claimed, demand := 16, claimed := true } s).setMap cfg
      [newEntry 2 0 (.reserved 1) ⟨8, 16⟩ 10] with
    claim := some (record stage echo) }

/-- Station 5's row. -/
def withRow (row : Row) (s : State) : State := { s with roster := s.roster.set 5 row }

/-- The state a command leaves, for the tests that look at one field of it. -/
def after (i : Instr) (s : State) : State :=
  match exec i s with
  | .next t => t
  | .fault _ => s
  | .refused _ => s

/-- A report of station 5 in slot 3 under sequence 2, with one STANDING and one CLAIM item. -/
def report : Report :=
  { sender := 5, sequence := 2, newMember := false, departing := false
    ackSet := (Vector.replicate 16 false).set 2 true
    items := [⟨.standing, 1, ⟨60, 8⟩, 6⟩, ⟨.claim, 0, ⟨4, 8⟩, 8⟩] }

/-- A report is being sent, and these bits of it have been read back. -/
def sending (bits : List Bool) (s : State) : State :=
  { inSlot s with
    line := { (inSlot s).line with ownReport := some report, transmitter := .sending { untilNext := 128, levels := bits } } }

/-! ### Which terms are commands -/

theorem test_shortFrame_of_a_whole_frame_is_ill_formed :
    (Instr.shortFrame (frameBits [0x21] [])).wellFormed = false := by decide

theorem test_shortFrame_of_an_unknown_byte_is_ill_formed :
    (Instr.shortFrame (frameBits [0x99] [])).wellFormed = false := by decide

theorem test_unknown_of_a_known_byte_is_ill_formed : (Instr.unknown 0x31 []).wellFormed = false := by decide

theorem test_wellFormed_terms :
    (Instr.shortFrame [true]).wellFormed = true ∧ (Instr.shortFrame (frameBits [0x31, 0x00] [])).wellFormed = true
      ∧ (Instr.unknown 0x99 [true]).wellFormed = true := by
  decide

/-- The bits of 0x31, most significant first, and of a channel and a length: DEMAND; 0x31 alone is short, and 0x12 is no
command byte (R178, R192). -/
theorem test_frames_decode :
    decodeFrame ([false, false, true, true, false, false, false, true] ++ frameBits [0x02, 0x0C] [true])
        = .demand 0x02 0x0C [true]
      ∧ decodeFrame [false, false, true, true, false, false, false, true]
        = .shortFrame [false, false, true, true, false, false, false, true]
      ∧ decodeFrame [false, false, false, true, false, false, true, false, true] = .unknown 0x12 [true]
      ∧ decodeFrame (frameBits [0x44, 0x08] []) = .takeNotices 0x08 [] := by
  decide

/-! ### The span map: the example of chapter 1 -/

/-- The map of station 2 in the example after section 1.5. -/
def exampleMap : List Entry :=
  [newEntry 5 2 .standing ⟨0, 12⟩ 9, newEntry 2 0 .standing ⟨8, 16⟩ 10, newEntry 2 0 (.reserved 0) ⟨8, 24⟩ 10,
   newEntry 7 3 (.reserved 0) ⟨20, 10⟩ 7, newEntry 0 1 .standing ⟨60, 8⟩ 6]

theorem test_example_is_in_map_order : MapOrdered exampleMap := by decide

theorem test_example_loads :
    load exampleMap 0 = 15 ∧ load exampleMap 4 = 9 ∧ load exampleMap 8 = 19 ∧ load exampleMap 12 = 10
      ∧ load exampleMap 20 = 17 ∧ load exampleMap 31 = 10 ∧ load exampleMap 32 = 0 ∧ load exampleMap 60 = 6 := by
  decide

theorem test_example_has_no_marks : refreshMarks 20 exampleMap = exampleMap := by decide

theorem test_example_fits :
    fits exampleMap 20 9 0 4 ⟨30, 6⟩ = true ∧ fits exampleMap 20 5 2 9 ⟨0, 16⟩ = true
      ∧ fits exampleMap 20 9 1 6 ⟨0, 4⟩ = false := by
  decide

theorem test_readSpans_wraps_after_the_last_entry :
    (selectEntries exampleMap 3 4).map Entry.owner = [7, 0, 5, 2]
      ∧ (selectEntries exampleMap 3 8).map Entry.owner = [7, 0, 5, 2, 2] := by
  decide

theorem test_span_wraps : (Span.mk 60 8).slices = [60, 61, 62, 63, 0, 1, 2, 3] := by decide

/-! ### Placement, pins and the line -/

theorem test_preferred_starts :
    preferredStart 0 0 = 0 ∧ preferredStart 0 1 = 16 ∧ preferredStart 1 0 = 4 ∧ preferredStart 4 0 = 16 := by decide

theorem test_pin_of_a_wrapping_span :
    (Span.mk 50 44).covers 29 = true ∧ (Span.mk 50 44).covers 30 = false ∧ (Span.mk 50 44).covers 49 = false
      ∧ (Span.mk 50 44).covers 50 = true := by
  decide

theorem test_report_lengths : [0, 1, 2, 3, 4, 5, 6, 7, 8].map lineLength = [53, 74, 95, 116, 136, 157, 178, 199, 219] := by
  decide

theorem test_own_slots : ownSlot cfg 0 = 2 ∧ ownSlot cfg 2 = 0 ∧ ownSlot cfg 3 = 15 ∧ settleTime = 528384 := by decide

/-- A departure report of station 2, sequence 1, acknowledging stations 0 and 15: the fields of R191, bit by bit. -/
theorem test_departure_report_bits :
    bodyBits { sender := 2, sequence := 1, newMember := false, departing := true
               ackSet := ((Vector.replicate 16 false).set 0 true).set 15 true, items := [] }
      = [false, false, true, false] ++ [false, false, false, false, false, false, false, true] ++ [false, true]
        ++ [true] ++ List.replicate 14 false ++ [true] ++ [false, false, false, false] := by
  decide

/-- An item: CLAIM, channel 3, start 60, length 8 (sent as 7), weight 10. -/
theorem test_item_bits :
    itemBits ⟨.claim, 3, ⟨60, 8⟩, 10⟩
      = [true, true, true, true, true, true, true, false, false, false, false, false, true, true, true,
         false, true, false, true, false] := by
  decide

theorem test_report_reads_back :
    (receive ((lineBits report).drop 1)).report = report ∧ (receive ((lineBits report).drop 1)).checkOk = true := by
  decide +kernel

/-! ### Records of the host port -/

/-- A record for station 9, slice code 1, budget 300, E sent as 0, lease 100, threshold 8, channel 0 enabled with weight 7
and floor 5, and channels 1 to 3 disabled with weight 1 and floor 1. -/
def exampleRecord : Vector Byte 15 :=
  #v[0x91, 0x01, 0x2C, 0x00, 0x64, 0x08, 0x87, 0x05, 0x01, 0x01, 0x01, 0x01, 0x01, 0x01, 0x44]

theorem test_configuration_record :
    parseRecord exampleRecord = some
      { station := 9, sliceCode := 1, budget := 300, expiry := 4, lease := 100, threshold := 8
        channels := #v[⟨true, 7, 5⟩, ⟨false, 1, 1⟩, ⟨false, 1, 1⟩, ⟨false, 1, 1⟩] } := by
  decide

theorem test_record_with_a_wrong_sum : parseRecord (exampleRecord.set 14 0x45) = none := by decide

/-- REFUSED for channel 1, span (8, 16), NOT ACKED by station 7, at sequence 3: the bytes of R194. -/
theorem test_notice_bytes :
    noticeBytes ⟨.refused 1 ⟨8, 16⟩ (.notAcked 7), 3⟩ = [0x06, 0x03, 0xF0, 0x74, 0x08, 0x10, 0xC0]
      ∧ noticeBytes ⟨.sequenceAdopted 9 4, 4⟩ = [0x10, 0x04, 0x02, 0x00, 0x09, 0x04, 0x00] := by
  decide

theorem test_entry_bytes :
    entryBytes { newEntry 7 3 (.reserved 1) ⟨20, 10⟩ 7 with overlap := true } = [0x7F, 0x14, 0x0A, 0x07, 0x01] := by
  decide

/-! ### Commands -/

/-- HCS falls 31 cycles after reset: the frame begins one cycle later (R176). -/
theorem test_frame_waits_for_the_gap :
    (after (.frameBegin (some 31)) State.reset).port.hcs = .early
      ∧ (after .frameBegin State.reset).port.hcs = .frame
      ∧ (after .deferredFrameBegin (after (.frameBegin (some 31)) State.reset)).port.sinceRise = 32 := by
  decide

/-- OK is 0x80: a ninth HSCK period, after one byte, shows a 0 of the byte after, and one bit of the second byte is in
(R176, R177). -/
theorem test_bits_are_shifted :
    let p := (HostPort.reset.beginFrame.gather (byteBits 0x21)).feed true (clockBits [true])
    p.received = [0x21] ∧ p.bitPos = 1 ∧ p.outPos = 1 ∧ p.partialBits = [true] ∧ p.hsdo = false
      ∧ p.shown = [true, false, false, false, false, false, false, false, false] := by
  decide

/-- HSCK rises 5 CLK cycles after HCS fell and falls 8 cycles later: HSDI is sampled at the rise, and HSDO, which shows
the 1 of OK, goes on to the 0 after it only at the fall (R176). -/
theorem test_hsdo_changes_at_the_falling_edge :
    let p := HostPort.reset.beginFrame.feed true [{ after := 5, hsdi := true }, { after := 8, hsdi := false }]
    (p.advance 4 true).partialBits = [] ∧ (p.advance 4 true).hsck = false
      ∧ (p.advance 12 true).partialBits = [true] ∧ (p.advance 12 true).hsdo = true
      ∧ (p.advance 13 true).hsdo = false ∧ (p.advance 13 true).partialBits = [true] :=
  ⟨rfl, rfl, rfl, rfl, rfl, rfl⟩

/-- HCS has fallen early, and HSCK rises before the frame begins: that bit is not in it (R176). -/
theorem test_an_early_edge_is_not_counted :
    let s := after (.frameBegin (some 0) [{ after := 5, hsdi := true }]) State.reset
    (after .deferredFrameBegin s).port.partialBits = [] ∧ (after .deferredFrameBegin s).port.hsck = true := by
  decide

theorem test_fetch_answers_ok : (after (.fetch []) (framed State.reset)).port.held = .okEmpty := by decide

theorem test_short_frame : (after (.shortFrame (frameBits [0x31] [true])) (framed State.reset)).port.held.code = .shortFrame := by decide

theorem test_unknown : (after (.unknown 0x12 []) (framed State.reset)).port.held.code = .unknown := by decide

theorem test_configure_makes_ready :
    (after (.configure exampleRecord []) (framed State.reset)).member.state = .ready := by decide

theorem test_join_is_refused_in_dormant :
    (after (.join []) (framed State.reset)).port.held.code = .badState
      ∧ (after (.join []) (framed (inState .ready))).member.state = .listening := by
  decide

theorem test_depart_by_state :
    (after (.depart []) (framed (inState .member))).member.state = .departing
      ∧ (after (.depart []) (framed (inState .silenced))).member.state = .ready := by
  decide

theorem test_restart_keeps_the_configuration : (after (.restart []) (framed (inState .member))).member.state = .ready := by
  decide

theorem test_demand_seeks :
    ((after (.demand 0 16 []) (framed (inState .ready))).channel 0).state = .seeking
      ∧ (after (.demand 0 3 []) (framed (inState .ready))).port.held.code = .badArg
      ∧ (after (.demand 3 16 []) (framed (inState .ready))).port.held.code = .badArg := by
  decide

/-- L = 8: the early window is the count below 2 (R161). -/
theorem test_renew_window :
    (after (.renew []) (framed { inState .member with leaseCount := 1 })).port.held.code = .early
      ∧ (after (.renew []) (framed { inState .member with leaseCount := 2 })).port.held.code = .ok := by
  decide

theorem test_status_length : (after (.status []) (framed (inState .member))).port.held.data.length = 37 := by decide

theorem test_roster_length : (after (.readRoster []) (framed (inState .member))).port.held.data.length = 30 := by decide

theorem test_readSpans_of_an_empty_map :
    (after (.readSpans 200 8 []) (framed State.reset)).port.held = { code := .ok, data := [0] } := by decide

theorem test_takeNotices_bad_count :
    (after (.takeNotices 9 []) (framed State.reset)).port.held.code = .badArg
      ∧ (after (.takeNotices 8 []) (framed State.reset)).port.held = { code := .ok, data := [0, 0] } := by
  decide

theorem test_full_reset : (after .fullReset (inState .member)).member.state = .dormant := by decide

theorem test_reset_release : (after .resetRelease { State.reset with resetHeld := true }).resetHeld = false := by decide

theorem test_founding : (after .founding
    { inState .listening with line := { (inState .listening).line with foundingWait := some 0 } }).line.markDriver
      = .driving 0 := by
  decide

theorem test_expiry_drives : (after .cycleTimerExpiry
    { inState .member with line := { (inState .member).line with cycleTimer := some 0 } }).line.markDriver
      = .driving 0 := by
  decide

theorem test_slice_boundary :
    (after .sliceBoundary
      { inState .member with output := { OutputSequencer.clear with running := true } }).output.counter = 1 := by
  decide

theorem test_own_slot_start_shortens_the_span :
    (after .ownSlotStart (windowed (holding 8 (inState .member)))).output.staged[0] = some ⟨8, 8⟩ := by decide

theorem test_own_slot_start_releases_at_demand_0 :
    (after .ownSlotStart (windowed (holding 0 (inState .member)))).map = [] := by decide

theorem test_own_slot_end_counts :
    (after .ownSlotEnd (inSlot (failed 1 (inState .member)))).line.echoFailures = 2
      ∧ (after .ownSlotEnd (sent (inSlot (failed 1 (inState .member))))).line.echoFailures = 0 := by
  decide

theorem test_silenced : (after .silenced (inSlot (failed 2 (holding 16 (inState .member))))).map = [] := by decide

theorem test_restored :
    (after .restored (sent (inSlot
      { inState .silenced with member := { Membership.clear .silenced with restoreCount := 1 } }))).member.state
      = .member := by
  decide

theorem test_arrival_records_the_standing_item_and_accepts_the_claim :
    let t := after (.reportArrival ((lineBits report).drop 1)) (receiving (lineBits report) (inState .member))
    (standingOf t.map 5 1).map Entry.span = some ⟨60, 8⟩ ∧ t.roster[5].accept = true := by
  decide +kernel

/-- A bit is read in its middle: a fall 128 cycles after the first sample re-times the next by the half bit (R139). -/
theorem test_a_fall_retimes_the_sampling :
    (Sampler.start.pass 64 false).pass 100 true = { untilNext := 28, levels := [false] }
      ∧ ((Sampler.start.pass 64 false).pass 100 true).retime.pass 64 false
        = { untilNext := 128, levels := [false, false] } := by
  decide

/-- The report's start bit reads back high: its driver has failed (R148). -/
theorem test_echo_mismatch_stops :
    (after (.echoMismatch 0) (sending [] (inState .member))).line.transmitter = .stopped
      ∧ (after .transmitEnd (sending [] (inState .member))).line.reportSent = false
      ∧ (after .transmitEnd (sending (lineBits report) (inState .member))).line.reportSent = true := by
  decide +kernel

theorem test_line_fault_drops_the_pins :
    (after .lineFault (lowLine (holding 16 (inState .member)))).output = .clear := by decide

theorem test_falling_edge_may_be_a_mark :
    (after (.lineFallingEdge 4096) (inState .member)).line.lowMayBeMark = true
      ∧ (after (.lineFallingEdge 4095) (inState .member)).line.lowMayBeMark = false := by
  decide

theorem test_rising_edge_starts_the_high_time : (after (.lineRisingEdge 9) (lowLine (inState .member))).line.highTime = 0 := by
  decide

/-! ### Witnesses: a state and operands that meet the hypotheses of each statement, at the ends of the ranges it names -/

theorem witness_StepTakesFrontCommand :
    ({ State.reset with pending := [.frameBegin, .mark] } : State).pending = Instr.frameBegin :: [.mark] := by decide

theorem witness_IdleStepPassesOneClockCycle : State.reset.pending = [] := by decide

theorem witness_WellFormedCommandsComplete :
    (Instr.shortFrame (frameBits [0x31, 0x00] [])).wellFormed = true
      ∧ completeBytes (frameBits [0x31, 0x00, 0x00] []) = 0x31 :: [0x00, 0x00]
      ∧ completeBytes (frameBits [0x45] []) = 0x45 :: []
      ∧ commandLength 0x31 = some 3 ∧ 3 ≤ [(0x00 : Byte), 0x00].length + 1
      ∧ commandLength 0x00 = some 1 ∧ commandLength 0x45 = none := by
  decide

theorem witness_FramesSpellTheirCommands :
    (Instr.demand 0x02 0x0C [true]).wellFormed = true
      ∧ (Instr.demand 0x02 0x0C [true]).frameBits = some (frameBits [0x31, 0x02, 0x0C] [true]) := by
  decide

/-- HCS falling 31 and 32 cycles after it rose, with RESET high and low; HCS low before 2 µs. A port in a frame with an
edge to come in 5 cycles, HSCK low and high; and one with no edge to come. -/
theorem witness_FrameBeginStartsAFrame :
    let p := fun (clock : Bool) =>
      { State.reset.port.beginFrame with hsck := clock, toClock := [{ after := 5, hsdi := true }] }
    ((p false).hcs = .frame ∧ (p true).hsck = true ∧ (p false).hsck = false
      ∧ (p true).toClock = { after := 5, hsdi := true } :: [] ∧ 4 < (5 : Nat) ∧ 5 ≤ (5 : Nat)
      ∧ State.reset.port.hcs ≠ .frame ∧ State.reset.port.toClock = [])
      ∧ (State.reset.resetHeld = false ∧ State.reset.port.hcs = .high) ∧ State.reset.port.sinceRise + 31 < 32
      ∧ 32 ≤ State.reset.port.sinceRise + 32 ∧ ({ State.reset with resetHeld := true } : State).port.hcs = .high
      ∧ (framed State.reset).port.hcs ≠ .high
      ∧ ({ State.reset.port with hcs := .early } : HostPort).hcs = .early := by
  decide

/-- A frame of two bytes, of which nine bits have been clocked in; and one that begins with another bit. -/
theorem witness_EveryFrameShowsTheHeldResponse :
    let bits := frameBits [0x44, 0x08] []
    let s := { inState .member with port := (inState .member).port.beginFrame.gather (bits.take 9) }
    (Instr.takeNotices 8 []).wellFormed = true ∧ (Instr.takeNotices 8 []).frameBits = some bits ∧ FrameOf s bits
      ∧ s.port.hcs = .frame ∧ s.resetHeld = false ∧ ¬FrameOf s (frameBits [0x00] [])
      ∧ State.reset.port.hcs ≠ .frame ∧ Instr.frameBits .frameBegin = none := by
  decide

theorem witness_UntakenFramesOnlyAnswer :
    FrameOf (framed State.reset) [true] ∧ completeBytes [true] = []
      ∧ FrameOf (framed State.reset) (frameBits [0x31, 0x00] [])
      ∧ completeBytes (frameBits [0x31, 0x00] []) = 0x31 :: [0x00] ∧ commandLength 0x31 = some 3
      ∧ [(0x00 : Byte)].length + 1 < 3 ∧ commandLength 0x01 = none
      ∧ FrameOf (framed State.reset) (frameBits [0x01] []) := by
  decide

theorem witness_FetchChangesNothing :
    let u := after (.frameBegin none (clockBits [false])) (after (.fetch []) (framed State.reset))
    FrameOf (framed State.reset) (frameBits [0x00] []) ∧ FrameOf u (frameBits [0x00] [true])
      ∧ (Instr.join []).frameBits = some (frameBits [0x21] [])
      ∧ ∃ t v, exec (.fetch []) (framed State.reset) = .next t
        ∧ exec (.frameBegin none (clockBits [false])) t = .next u ∧ exec (.fetch [true]) u = .next v :=
  ⟨by decide, by decide, rfl, _, _, rfl, rfl, rfl⟩

/-- A record with the example's channels; channel 0 enabled with floor 5, and a lease of its own. -/
def recordWithLease (lease sum : Byte) : Vector Byte 15 := (exampleRecord.set 4 lease).set 14 sum

theorem witness_ConfigureIsCheckedInOrder_states :
    (framed (inState .member)).member.state ≠ .dormant ∧ (framed (inState .member)).member.state ≠ .ready
      ∧ FrameOf (framed (inState .member)) (frameBits (0x11 :: exampleRecord.toList) []) ∧ (framed State.reset).member.state = .dormant
      ∧ parseRecord (exampleRecord.set 14 0x45) = none := by
  decide

/-- A demand of 5 meets the record's floor of 5, and one of 4 does not; a lease count of 100 is within its lease of 100. -/
theorem witness_ConfigureIsCheckedInOrder_ready :
    FrameOf (framed (withChannel { ChannelRecord.reset with demand := 4 } (inState .ready))) (frameBits (0x11 :: exampleRecord.toList) [])
      ∧ (parseRecord exampleRecord).isSome = true
      ∧ (framed (withChannel { ChannelRecord.reset with demand := 4 } (inState .ready))).demand[0] = 4
      ∧ (parseRecord exampleRecord).any (fun c => decide (c.channels[0].floor = 5 ∧ c.lease = 100)) = true
      ∧ (framed (withChannel { ChannelRecord.reset with demand := 5 } (inState .ready))).demand[0] = 5
      ∧ ({ framed (inState .ready) with leaseCount := 100 } : State).leaseCount ≤ 100
      ∧ 100 < ({ framed (inState .ready) with leaseCount := 101 } : State).leaseCount := by
  decide

/-- Records at the ends of the ranges of R193: budgets 1 and 1023, E 3 and 15, thresholds 1 and 32, floor 64; and budget
1024 out of range. -/
theorem witness_ConfigurationRecordLayout :
    (parseRecord #v[0x00, 0x00, 0x01, 0x03, 0x08, 0x01, 0x01, 0x40, 0x01, 0x01, 0x01, 0x01, 0x01, 0x01, 0xAC]).isSome
        = true
      ∧ (parseRecord #v[0xF3, 0x03, 0xFF, 0x0F, 0x00, 0x20, 0x1F, 0x40, 0x01, 0x01, 0x01, 0x01, 0x01, 0x01, 0x77]).isSome
        = true
      ∧ parseRecord #v[0xF3, 0x04, 0x00, 0x0F, 0x00, 0x20, 0x1F, 0x40, 0x01, 0x01, 0x01, 0x01, 0x01, 0x01, 0x75]
        = none := by
  decide

theorem witness_JoinBeginsListening :
    FrameOf (framed (inState .ready)) (frameBits [0x21] []) ∧ (framed (inState .ready)).member.state = .ready
      ∧ (framed (inState .member)).member.state ≠ .ready := by
  decide

theorem witness_DepartFollowsTheStationState :
    FrameOf (framed (inState .member)) (frameBits [0x22] []) ∧ (framed (inState .member)).member.state = .member
      ∧ (framed (inState .departing)).member.state = .departing ∧ (framed State.reset).member.state = .dormant
      ∧ (framed (inState .silenced)).member.state = .silenced ∧ (framed (inState .silenced)).config ≠ none
      ∧ (framed (inState .silenced)).notices.queue.length < 32 := by
  decide

theorem witness_RestartKeepsOnlyTheConfiguration : FrameOf (framed (holding 16 (inState .member))) (frameBits [0x2F] []) := by decide

/-- Lengths 0, 4 (the floor), 64 and 65, and the channels 2, 3 (disabled) and 4. -/
theorem witness_DemandIsCheckedInOrder :
    FrameOf (framed (inState .member)) (frameBits [0x31, 2, 4] []) ∧ (framed (inState .member)).config = some cfg
      ∧ (framed State.reset).member.state = .dormant ∧ 3 < (4 : Byte).toNat ∧ cfg.channels[3].enabled = false
      ∧ cfg.channels[2].enabled = true ∧ 64 < (65 : Byte).toNat ∧ (64 : Byte).toNat ≤ 64
      ∧ (3 : Byte).toNat < cfg.channels[2].floor ∧ cfg.channels[2].floor ≤ (4 : Byte).toNat
      ∧ (2 : Byte).toNat = (2 : ChannelNo).val := by
  decide

/-- DEMAND reaching a HELD, an IDLE and a BACKOFF channel with another value than the present one, and with the same. -/
theorem witness_DemandReachesItsChannel :
    ((holding 16 (inState .member)).channel 0).state = .held ∧ ((inState .member).channel 1).state = .idle
      ∧ 16 ≠ ((inState .member).channel 1).demand
      ∧ ((withChannel { ChannelRecord.reset with state := .backoff, demand := 8 } (inState .member)).channel 0).state
          = .backoff
      ∧ 0 ≠ ((holding 16 (inState .member)).channel 0).demand ∧ (1 : ChannelNo) ≠ 0 := by
  decide

/-- L = 8: lease counts 1 and 2 stand on either side of the early window's end. -/
theorem witness_RenewFollowsItsTable :
    FrameOf (framed (inState .member)) (frameBits [0x32] []) ∧ (framed (inState .member)).config = some cfg ∧ cfg.lease ≠ 0
      ∧ 1 < cfg.lease / 4 ∧ cfg.lease / 4 ≤ 2 ∧ ({ cfg with lease := 0 } : Configuration).lease = 0
      ∧ (framed State.reset).member.state = .dormant := by
  decide

theorem witness_StatusReturnsTheRecord :
    FrameOf (framed (holding 16 (inState .member))) (frameBits [0x41] [])
      ∧ ((framed (holding 16 (inState .member))).channel 0).held = some ⟨8, 16⟩
      ∧ ((framed (holding 16 (inState .member))).channel 1).held = none := by
  decide

theorem witness_ReadRosterReturnsThePeerRows :
    FrameOf (framed (inState .member)) (frameBits [0x42] []) ∧ (framed (inState .member)).config = some cfg
      ∧ (framed State.reset).member.state = .dormant ∧ (1 : StationNo) < cfg.station ∧ ¬(3 : StationNo) < cfg.station := by
  decide

/-- A map of one entry: indices 0 and 1, and counts 0, 1, 8 and 9. -/
theorem witness_ReadSpansSelectsInMapOrder :
    FrameOf (framed (holding 16 (inState .member))) (frameBits [0x43, 0, 8] []) ∧ (framed (holding 16 (inState .member))).map.length = 1
      ∧ (0 : Byte).toNat < 1 ∧ 1 ≤ (1 : Byte).toNat ∧ (8 : Byte).toNat ≤ 8 ∧ 8 < (9 : Byte).toNat
      ∧ (framed (inState .member)).map.length = 0 := by
  decide

theorem witness_TakeNoticesFromTheHead :
    FrameOf (framed ((inState .member).issue .joined)) (frameBits [0x44, 8] []) ∧ (framed ((inState .member).issue .joined)).notices.queue.length = 1
      ∧ 1 ≤ (1 : Byte).toNat ∧ (8 : Byte).toNat ≤ 8 ∧ 8 < (9 : Byte).toNat ∧ (0 : Byte).toNat = 0 := by
  decide

theorem witness_FullResetClearsEverything :
    ({ State.reset with resetHeld := true } : State).resetHeld = true ∧ Instr.mark.wellFormed = true
      ∧ Instr.mark ≠ .fullReset ∧ Instr.mark ≠ .resetRelease := by
  decide

theorem witness_FullQueueCountsWhatItLoses :
    let s := fun (n : Nat) =>
      { inState .member with notices := { NoticeQueue.clear with queue := List.replicate n ⟨.joined, 0⟩ } }
    (s 31).notices.queue.length < 32 ∧ 32 ≤ (s 32).notices.queue.length ∧ (s 31).config = some cfg := by
  decide

/-- LISTENING with the founding wait running, with the window closed and open; a wait of two own cycle lengths, one a
cycle short of it, and a founding that falls together with the mark. -/
theorem witness_MarkDriverDrivesOrWaits_founding :
    let s := fun (wait : Nat) (isOpen due : Bool) =>
      { inState .listening with
        line := { (inState .listening).line with foundingWait := some wait, windowOpen := isOpen, foundingDue := due } }
    Running cfg (s 0 false false) ∧ (s 0 false false).member.founding = false
      ∧ (s 0 false false).line.windowOpen = false ∧ (s 0 true true).line.foundingDue = true
      ∧ 2 * ownCycleLength cfg ≤ 2048000 ∧ 2047999 < 2 * ownCycleLength cfg
      ∧ (s 2047999 true false).line.foundingDue = false := by
  decide

/-- A timer that has run for the own cycle length and one just begun, and a driver that waits, with the line high, low
for 127 and for 128 CLK cycles after a high of 32 bit times. -/
theorem witness_MarkDriverDrivesOrWaits_expiry :
    let s := fun (timer : Nat) (driver : MarkDriver) (low : Nat) =>
      { inState .member with
        line := { (inState .member).line with
          cycleTimer := some timer, markDriver := driver, lineLow := true, lowTime := low, highTime := 4096 } }
    Running cfg (s 0 .idle 0) ∧ (s 0 .idle 0).member.state.sends = true ∧ (s 0 .idle 0).line.windowOpen = false
      ∧ (s 0 .idle 0).line.cycleTimer = some 0 ∧ 1024000 = ownCycleLength cfg
      ∧ ((s 1024000 .idle 0).advance 0).line.markDriver = .idle
      ∧ (s 0 .waiting 127).line.markDriver = .waiting ∧ (s 0 .waiting 127).drivesMarks = true
      ∧ ((s 0 .waiting 127).line.lowTime < 128 ∧ 4096 ≤ (s 0 .waiting 127).line.highTime)
      ∧ ¬(s 0 .waiting 128).line.lowTime < 128 ∧ (inState .member).line.lineLow = false
      ∧ (inState .listening).member.founding = false := by
  decide

/-- A recognised and a driven mark; in LISTENING with a founding wait that reaches two own cycle lengths at the taking. -/
theorem witness_MarkStartsANewCycle :
    let s := lowLine (inState .listening)
    let waits := { s with line := { s.line with foundingWait := some 2048000 } }
    Running cfg s ∧ s.member.state.onLine = true ∧ s.line.windowOpen = false ∧ s.line.lineLow = true
      ∧ s.line.lowMayBeMark = true ∧ s.line.faultMeasure = some 1536 ∧ s.line.markDriver = .idle
      ∧ waits.line.foundingWait = some 2048000 ∧ 2 * ownCycleLength cfg ≤ 2048000 + (1536 - 1536)
      ∧ ({ s.line with markDriver := .driving 0 } : LineInterface).markDriver = .driving 0 := by
  decide

/-- The same state serves for every statement about a mark. -/
theorem witness_MarkCommitsTheStagedSet :
    Running cfg (lowLine (holding 16 (inState .member)))
      ∧ markOrigin (lowLine (holding 16 (inState .member))) = some (1536, false)
      ∧ (lowLine (holding 16 (inState .member))).output.staged[0] = some ⟨8, 16⟩ := by
  decide

theorem witness_MarkCommitsTheStagedSet_reserved :
    Running cfg (lowLine (claiming .sent .success (inState .member)))
      ∧ markOrigin (lowLine (claiming .sent .success (inState .member))) = some (1536, false)
      ∧ (lowLine (claiming .sent .success (inState .member))).map.length = 1 := by
  decide

/-- A BACKOFF channel with wait 1, and a mark at which the lease does not lapse. -/
theorem witness_MarkCountsWaitsDown :
    let s := lowLine (withChannel { ChannelRecord.reset with state := .backoff, demand := 8, wait := 1 } (inState .member))
    Running cfg s ∧ markOrigin s = some (1536, false) ∧ s.leaseCount + 1 ≠ cfg.lease
      ∧ (s.channel 0).state = .backoff ∧ (s.channel 0).wait = 1 := by
  decide

/-- Listen counts 3 and 4, with E = 4. -/
theorem witness_ListeningMarksLeadToMember :
    let s := fun (n : Nat) =>
      lowLine { inState .listening with member := { Membership.clear .listening with listenCount := n } }
    Running cfg (s 4) ∧ markOrigin (s 4) = some (1536, false) ∧ cfg.expiry ≤ (s 4).member.listenCount
      ∧ (s 3).member.listenCount < cfg.expiry ∧ (s 4).member.state = .listening
      ∧ (s 4).notices.queue.length ≤ 30 ∧ (lowLine (inState .member)).member.state ≠ .listening := by
  decide

/-- Lease counts 6, 7 and 8, with L = 8; a SEEKING channel with a demand. -/
theorem witness_LeaseLapsesAtL :
    let s := fun (n : Nat) =>
      lowLine { withChannel { ChannelRecord.reset with state := .seeking, demand := 8 } (inState .member) with
        leaseCount := n }
    Running cfg (s 7) ∧ markOrigin (s 7) = some (1536, false) ∧ (s 7).leaseCount + 1 = cfg.lease
      ∧ (s 6).leaseCount + 1 ≠ cfg.lease ∧ (s 8).leaseCount + 1 ≠ cfg.lease
      ∧ ((s 7).channel 0).demand ≠ 0 ∧ ((s 7).channel 0).state = .seeking ∧ ((s 7).channel 1).state = .idle
      ∧ ((lowLine (holding 16 (inState .member))).channel 0).state = .held ∧ (s 7).notices.queue.length ≤ 30 := by
  decide

/-- A MEMBER with nothing outstanding has none of the outcomes the eight rows name. -/
theorem witness_RowsWithoutTheirOutcomeTakeNothing :
    Running cfg (inState .member)
      ∧ (∀ c : ChannelNo, ((inState .member).channel c).state = .backoff → ((inState .member).channel c).wait ≠ 1)
      ∧ (inState .member).member.state ≠ .listening ∧ (inState .member).leaseCount + 1 ≠ cfg.lease
      ∧ min 15 ((inState .member).line.echoFailures + 1) < cfg.expiry - 1
      ∧ (inState .member).member.state ≠ .departing ∧ (inState .member).member.state ≠ .silenced
      ∧ (∀ p : StationNo, (inState .member).roster[p].status = .live → (inState .member).roster[p].heard = true) := by
  decide

/-- Counters 62 and 63. -/
theorem witness_SliceBoundaryMovesThePins :
    let s := fun (n : Nat) => { inState .member with output := { OutputSequencer.clear with running := true, counter := n } }
    Running cfg (s 62) ∧ (s 62).output.running = true ∧ (s 62).output.counter < 63 ∧ 63 ≤ (s 63).output.counter
      ∧ (inState .member).output.running = false := by
  decide

/-- The state of cfg's station at own-slot-start after the yields. -/
def yields (s : State) : State :=
  let u := s.advanceTimer (ownSlotTime cfg s)
  applyYields cfg { u with line := { u.line with slotPhase := .during, transmitter := .idle } }

/-- A span of 16 slices held for the demands 0, 8 and 16: released, shortened and kept. -/
theorem witness_MemberReportShowsTheOwnEntries :
    let s := fun (demand : Nat) => windowed (holding demand (inState .member))
    Running cfg (s 8) ∧ (s 8).member.state = .member ∧ (s 8).member.state.onLine = true
      ∧ (s 8).line.windowOpen = true ∧ (s 8).line.slotPhase = .before
      ∧ (yields (s 0)).ownStanding 0 = some ⟨8, 16⟩ ∧ ((s 0).channel 0).demand = 0
      ∧ ((yields (s 0)).channel 0).state = .held
      ∧ (yields (s 8)).ownStanding 0 = some ⟨8, 16⟩ ∧ ((s 8).channel 0).demand < 16
      ∧ (yields (s 16)).ownStanding 0 = some ⟨8, 16⟩ ∧ 16 ≤ ((s 16).channel 0).demand
      ∧ (yields (s 8)).ownStanding 1 = none := by
  decide

/-- Station 2's channel 1 holds (8, 8) and station 1's channel 0 holds (0, 16), with weights that together exceed the
budget. -/
def contested (weight : Nat) : State :=
  let channels := resetChannels.set 1 { ChannelRecord.reset with state := .held, demand := 8 }
  windowed (({ inState .member with channels := channels } : State).setMap cfg
    [newEntry 1 0 .standing ⟨0, 16⟩ weight, newEntry 2 1 .standing ⟨8, 8⟩ 10])

/-- A SEEKING channel with room, one with none, and one that does not take part; the state is in step. -/
theorem witness_OwnSlotStartPlacesClaims :
    let s := fun (demand : Nat) =>
      windowed (withChannel { ChannelRecord.reset with state := .seeking, demand := demand, deficit := demand }
        (inState .member))
    let full := { cfg with budget := 9 }
    Running cfg (s 8) ∧ HeldInStep (s 8) ∧ (s 8).member.state = .member ∧ (s 8).line.windowOpen = true
      ∧ (s 8).line.slotPhase = .before ∧ (applyReleases cfg (yields (s 8))).claim = none ∧ ((s 8).channel 0).state = .seeking
      ∧ search cfg (s 8).map 0 ((s 8).channel 0) = some ⟨8, 8⟩
      ∧ search full (s 8).map 0 ((s 8).channel 0) = none ∧ ((s 8).channel 1).state = .idle := by
  decide

/-- The marked entry yields to station 1's; against an entry of station 3, a higher key, it would be kept. -/
theorem witness_SpansYieldToLowerKeys :
    let e := { newEntry 2 1 .standing ⟨8, 8⟩ 10 with overlap := true }
    Running cfg (contested 25) ∧ (contested 25).member.state = .member ∧ (contested 25).line.windowOpen = true
      ∧ (contested 25).line.slotPhase = .before ∧ standingOf (contested 25).map cfg.station 1 = some e
      ∧ ((contested 25).channel 1).demand ≠ 0 ∧ ((contested 25).channel 0).demand = 0
      ∧ winningKey cfg.budget (contested 25).map e = some (1, 0)
      ∧ winningKey cfg.budget [e, newEntry 3 0 .standing ⟨8, 8⟩ 25] e = none := by
  decide

/-- The same with a second span of station 2, (12, 8) of channel 2, examined after that of channel 1; channel 1 has
claimed, and so has channel 0. -/
def contestedTwice (weight : Nat) : State :=
  let claimed := { ChannelRecord.reset with state := .claimed, demand := 8, claimed := true }
  let channels := ((resetChannels.set 0 claimed).set 1 claimed).set 2
    { ChannelRecord.reset with state := .held, demand := 8 }
  windowed { ({ inState .member with channels := channels } : State).setMap cfg
      [newEntry 1 0 .standing ⟨0, 16⟩ weight, newEntry 2 0 (.reserved 1) ⟨40, 8⟩ 10, newEntry 2 1 .standing ⟨8, 8⟩ 10,
       newEntry 2 1 (.reserved 1) ⟨50, 8⟩ 10, newEntry 2 2 .standing ⟨12, 8⟩ 10] with
    claim := some { record .due .success with claims := [(0, ⟨40, 8⟩), (1, ⟨50, 8⟩)] } }

/-- Channel 1 has claimed and yields, and its claim is not the only one of its record. The entry of channel 2 loses
against the map as it was; without channel 1's span it is kept beside a weight of 20, and yields beside one of 21. -/
theorem witness_SpansYieldToLowerKeys_in_turn :
    let s := contestedTwice 20
    let e := { newEntry 2 1 .standing ⟨8, 8⟩ 10 with overlap := true }
    let f := { newEntry 2 2 .standing ⟨12, 8⟩ 10 with overlap := true }
    Running cfg s ∧ s.member.state = .member ∧ s.line.windowOpen = true ∧ s.line.slotPhase = .before
      ∧ standingOf s.map cfg.station 1 = some e ∧ (s.channel 1).state = .claimed ∧ (s.channel 1).demand ≠ 0
      ∧ winningKey cfg.budget s.map e = some (1, 0)
      ∧ s.claim.map ClaimRecord.claims = some [(0, ⟨40, 8⟩), (1, ⟨50, 8⟩)]
      ∧ standingOf s.map cfg.station 2 = some f ∧ winningKey cfg.budget s.map f = some (1, 0)
      ∧ winningKey cfg.budget [newEntry 1 0 .standing ⟨0, 16⟩ 20, f] f = none
      ∧ winningKey cfg.budget [newEntry 1 0 .standing ⟨0, 16⟩ 21, f] f = some (1, 0)
      ∧ (yields s).claim.map ClaimRecord.claims = some [(0, ⟨40, 8⟩)]
      ∧ (yields s).ownStanding 2 = some ⟨12, 8⟩ := by
  decide

theorem witness_OtherStatesReportNoItems :
    Running cfg (windowed (holding 8 (inState .departing)))
      ∧ (windowed (holding 8 (inState .departing))).line.slotPhase = .before
      ∧ (windowed (holding 8 (inState .departing))).member.departureCount = 0
      ∧ ({ Membership.clear .departing with departureCount := 1 } : Membership).departureCount ≠ 0
      ∧ (windowed (inState .silenced)).member.state = .silenced
      ∧ (windowed (inState .listening)).member.state = .listening := by
  decide

/-- A report that waits to be sent, held off and not; one of which nothing has been read back while the line is high, so
that its start bit, bit 0, differs; and one that has been read back whole, to its last bit 94. -/
theorem witness_TransmitterStartsStopsAndEnds :
    let s := fun (held : Bool) =>
      let u := inSlot (windowed (inState .member))
      { u with line := { u.line with ownReport := some report, heldOff := held } }
    let failing := sending [] (inState .member)
    let whole := sending (lineBits report) (inState .member)
    let read := fun (bits : List Bool) => bits ++ List.replicate (219 - bits.length) true
    Running cfg (s false) ∧ (s false).line.ownReport = some report ∧ report.items.length ≤ 8
      ∧ (s false).member.state.sends = true ∧ (s false).line.reportSent = false
      ∧ (s false).line.lineLow = false ∧ (s true).line.heldOff = true
      ∧ failing.line.transmitter = .sending { untilNext := 128, levels := [] } ∧ failing.line.lineLow = false
      ∧ Running cfg failing ∧ failing.line.ownReport = some report ∧ whole.line.ownReport = some report
      ∧ (read [])[0]? ≠ (lineBits report)[0]? ∧ lineLength report.items.length = 95
      ∧ whole.line.transmitter = .sending { untilNext := 128, levels := lineBits report }
      ∧ (read (lineBits report)).take 95 = lineBits report := by
  decide +kernel

/-- A reading that begins, one of two levels, and a transmission that reads back; a reception of a report, one that began
with no start bit, and none. -/
theorem witness_BitsAreReadInTheMiddle :
    let s := receiving (lineBits report) (inState .member)
    Sampler.start.untilNext = 64 ∧ Sampler.start.levels.length < 219 ∧ [true, false].length ≤ 219
      ∧ (sending [] s).line.transmitter = .sending { untilNext := 128, levels := [] }
      ∧ Running cfg s ∧ s.member.state.onLine = true
      ∧ s.line.receiver = .receiving 3 { untilNext := 128, levels := lineBits report }
      ∧ (lineBits report).head? = some false
      ∧ (receiving [true] (inState .member)).line.receiver = .receiving 3 { untilNext := 128, levels := [true] }
      ∧ (inState .member).line.receiver = .idle ∧ (inState .member).arriving = none :=
  ⟨rfl, by decide, by decide, rfl, ⟨rfl, rfl⟩, rfl, rfl, rfl, rfl, rfl, rfl⟩

theorem witness_OwnSlotEndCountsEchoes :
    Running cfg (inSlot (inState .member)) ∧ (inSlot (inState .member)).member.state.onLine = true
      ∧ (inSlot (inState .member)).line.slotPhase = .during ∧ (inSlot (inState .listening)).member.state = .listening := by
  decide

/-- With E = 4 an echo-failure count of 1 does not silence the station at the next failure, and one of 2 does. -/
theorem witness_FailedEchoRefusesTheClaim :
    let s := inSlot (failed 1 (claiming .sent .pending (inState .member)))
    Running cfg s ∧ s.member.state = .member ∧ s.line.slotPhase = .during ∧ s.claim = some (record .sent .pending)
      ∧ s.line.reportSent = false ∧ (sent s).line.reportSent = true
      ∧ min 15 (s.line.echoFailures + 1) + 1 < cfg.expiry ∧ (0, ⟨8, 16⟩) ∈ (record .sent .pending).claims
      ∧ (s.channel 0).claimed = true ∧ (s.channel 0).demand ≠ 0
      ∧ ((record .sent .pending).claims.map Prod.fst).Nodup ∧ s.notices.queue.length ≤ 28 := by
  decide

/-- A claimed channel whose demand is 0, in MEMBER and DEPARTING, with a SENT and with a DUE record. -/
theorem witness_WithdrawnClaimsGoWithNoNotice :
    let s := fun (st : StationState) (stage : ClaimStage) =>
      let u := inSlot (windowed (claiming stage .success (inState st)))
      u.setChannel 0 { u.channel 0 with demand := 0 }
    let due := record .due .success
    Running cfg (s .member .due) ∧ (s .member .due).claim = some due ∧ (due.claims.map Prod.fst).Nodup
      ∧ (0, ⟨8, 16⟩) ∈ due.claims ∧ due.stage = .due ∧ (s .member .due).line.windowOpen = true
      ∧ (s .member .due).roster[cfg.station].status = .absent ∧ ((s .member .due).channel 0).claimed = true
      ∧ ((s .member .due).channel 0).demand = 0 ∧ (s .departing .due).member.departureCount ≠ 2
      ∧ (record .sent .success).stage = .sent ∧ (s .member .sent).line.slotPhase = .during
      ∧ (s .member .sent).line.reportSent = false
      ∧ min 15 ((s .member .sent).line.echoFailures + 1) + 1 < cfg.expiry := by
  decide

theorem witness_SilencedGivesUpItsSpans :
    let s := inSlot (failed 2 (holding 16 (inState .member)))
    Running cfg s ∧ s.member.state = .member ∧ s.line.slotPhase = .during ∧ s.line.reportSent = false
      ∧ cfg.expiry - 1 ≤ min 15 (s.line.echoFailures + 1) ∧ s.notices.queue.length ≤ 16 := by
  decide

/-- The record is SENT; or it is DUE with the settle point still to be taken, in slot 15 (sequence 3) and in slot 2; its
witness was heard and acknowledged, was heard and did not, and was not heard. -/
theorem witness_SilencedGivesUpItsSpans_records :
    let s := fun (stage : ClaimStage) (q : Sequence) (heard acked : Bool) =>
      let u := inSlot (failed 2 (windowed (withRow
        { Row.empty with status := .live, heard := heard, ackForMe := acked } (claiming stage .success (inState .member)))))
      { u with line := { u.line with sequence := q } }
    let due := record .due .success
    Running cfg (s .due 3 true true) ∧ (s .due 3 true true).member.state = .member
      ∧ (s .due 3 true true).line.slotPhase = .during ∧ (s .due 3 true true).line.reportSent = false
      ∧ cfg.expiry - 1 ≤ min 15 ((s .due 3 true true).line.echoFailures + 1)
      ∧ (s .sent 0 false false).claim = some (record .sent .success) ∧ (s .due 3 true true).claim = some due
      ∧ (due.claims.map Prod.fst).Nodup ∧ (0, ⟨8, 16⟩) ∈ due.claims ∧ ((s .due 3 true true).channel 0).claimed = true
      ∧ ((s .due 3 true true).channel 0).demand ≠ 0 ∧ (s .due 3 true true).line.windowOpen = true
      ∧ (ownSlot cfg (s .due 3 true true).line.sequence).val = 15
      ∧ (ownSlot cfg (s .due 0 true true).line.sequence).val ≠ 15
      ∧ (∀ w : StationNo, due.witnesses[w] = true →
          (s .due 3 true true).roster[w].heard = true ∧ (s .due 3 true true).roster[w].ackForMe = true)
      ∧ due.witnesses[5] = true ∧ (s .due 3 true false).roster[5].ackForMe = false
      ∧ (s .due 3 false false).roster[5].heard = false := by
  decide

theorem witness_DepartingStationIsClearedEarly :
    let s := inSlot (failed 2 (holding 16 (inState .departing)))
    Running cfg s ∧ s.member.state = .departing ∧ s.line.slotPhase = .during ∧ s.line.reportSent = false
      ∧ s.member.departureCount = 0 ∧ cfg.expiry - 1 ≤ min 15 (s.line.echoFailures + 1) := by
  decide

/-- Restore counts 0 and 1. -/
theorem witness_TwoEchoesRestoreTheStation :
    let s := fun (n : Nat) =>
      inSlot { inState .silenced with member := { Membership.clear .silenced with restoreCount := n } }
    Running cfg (s 0) ∧ (s 0).member.state = .silenced ∧ (s 0).line.slotPhase = .during ∧ (s 0).claim = none
      ∧ (s 0).line.reportSent = false ∧ (sent (s 0)).line.reportSent = true ∧ (s 0).member.restoreCount ≠ 1
      ∧ (s 1).member.restoreCount = 1 ∧ (s 1).notices.queue.length < 32 := by
  decide

/-- A report cut short at its second bit reads as 1s: station 15 is then its sender, which is no other's number here. And a
report of the own number with a right check, in LISTENING, before NUMBER IN USE. -/
theorem witness_InvalidReportIsOnlyCounted :
    let s := receiving [false] (inState .member)
    let t := receiving (lineBits { report with sender := 2, sequence := 15 }) (inState .listening)
    Running cfg s ∧ s.arriving.any (fun a => !valid cfg.station a.slot a.rx) = true
      ∧ Running cfg t
      ∧ t.arriving.any (fun a => !valid cfg.station a.slot a.rx && a.rx.checkOk
        && decide (a.rx.report.sender = cfg.station)) = true
      ∧ t.member.numberInUse = false ∧ t.member.state = .listening ∧ t.notices.queue.length < 32 := by
  decide +kernel

/-- The three statements about a valid report share their hypotheses. -/
theorem witness_ValidReportReachesTheRoster_and_ValidReportRecordsStandingItems :
    let s := receiving (lineBits report) (inState .member)
    Running cfg s ∧ s.arriving.any (fun a => valid cfg.station a.slot a.rx) = true
      ∧ s.roster[5].status = .absent ∧ s.line.lowestHeard = none ∧ s.notices.queue.length < 32 := by
  decide +kernel

/-- Two claims that fit together within a budget of 20, and two of which the second does not; a reservation of age 1, and
one of age 2. -/
theorem witness_PeerClaimsAreJudgedAllOrNone :
    let items := fun (w : Nat) => [Item.mk .claim 0 ⟨0, 8⟩ 10, Item.mk .claim 1 ⟨4, 8⟩ w]
    let s := receiving (lineBits report) (inState .member)
    (judgeClaims 20 5 (items 10) []).isSome = true ∧ judgeClaims 20 5 (items 11) [] = none
      ∧ youngReservation [newEntry 5 0 (.reserved 1) ⟨0, 8⟩ 10] 5 0 = true
      ∧ youngReservation [newEntry 5 0 (.reserved 2) ⟨0, 8⟩ 10] 5 0 = false
      ∧ Running cfg s ∧ s.arriving.any (fun a => valid cfg.station a.slot a.rx) = true :=
  have valid := witness_ValidReportReachesTheRoster_and_ValidReportRecordsStandingItems
  ⟨by decide, by decide, by decide, by decide, valid.1, valid.2.1⟩

/-- Rows of station 5 that were not heard, with silence 2 and 3, and E = 4. -/
theorem witness_SettlePointTakesTheRoster :
    let s := fun (n : Nat) => windowed (withRow { Row.empty with status := .live, silence := n } (inState .member))
    Running cfg (s 3) ∧ (s 3).member.state.onLine = true ∧ (s 3).line.windowOpen = true
      ∧ (s 3).member.state ≠ .departing ∧ (5 : StationNo) ≠ cfg.station ∧ (s 3).roster[5].status = .live
      ∧ (s 3).roster[5].heard = false ∧ cfg.expiry ≤ (s 3).roster[5].silence + 1
      ∧ (s 2).roster[5].silence + 1 < cfg.expiry ∧ (s 3).notices.queue.length ≤ 8 := by
  decide

/-- A DEPARTING row that was not heard. -/
theorem witness_SettlePointTakesTheRoster_departing :
    let s := windowed (withRow { Row.empty with status := .departing } (inState .member))
    Running cfg s ∧ (5 : StationNo) ≠ cfg.station ∧ s.roster[5].status = .departing ∧ s.roster[5].heard = false
      ∧ s.notices.queue.length ≤ 8 := by
  decide

/-- A due record whose only witness was heard with and without the own ack bit, and was not heard. -/
theorem witness_GrantNeedsEveryWitness :
    let s := fun (heard acked : Bool) =>
      windowed (withRow { Row.empty with status := .live, heard := heard, ackForMe := acked }
        (claiming .due .success (inState .member)))
    let due := record .due .success
    Running cfg (s true true) ∧ (s true true).member.state = .member ∧ (s true true).claim = some due
      ∧ (due.claims.map Prod.fst).Nodup ∧ (s true true).roster[cfg.station].status = .absent
      ∧ (0, ⟨8, 16⟩) ∈ due.claims ∧ ((s true true).channel 0).claimed = true
      ∧ ((s true true).channel 0).demand ≠ 0
      ∧ (∀ w : StationNo, due.witnesses[w] = true →
          (s true true).roster[w].heard = true ∧ (s true true).roster[w].ackForMe = true)
      ∧ due.witnesses[5] = true ∧ (s true false).roster[5].ackForMe = false ∧ (s false false).roster[5].heard = false
      ∧ (s true true).notices.queue.length ≤ 8 := by
  decide

/-- An own sequence of 4 with 3, 4 and 5 heard. -/
theorem witness_SettlePointAdoptsTheSequence :
    let s := fun (st : StationState) (q : Sequence) =>
      let u := windowed (inState st)
      { u with line := { u.line with sequence := 4, lowestHeard := some q } }
    Running cfg (s .member 3) ∧ (s .member 3).member.state.onLine = true ∧ (s .member 3).line.windowOpen = true
      ∧ (s .member 3).line.lowestHeard = some 3 ∧ (3 : Sequence).toNat < (s .member 3).line.sequence.toNat
      ∧ ¬(4 : Sequence).toNat < (s .member 4).line.sequence.toNat
      ∧ (s .listening 5).member.state = .listening ∧ (5 : Sequence) ≠ (s .listening 5).line.sequence
      ∧ (s .member 3).notices.queue.length ≤ 8 ∧ (inState .member).line.lowestHeard = none := by
  decide

theorem witness_SecondDepartureReportCompletes :
    let s := windowed { inState .departing with member := { Membership.clear .departing with departureCount := 2 } }
    Running cfg s ∧ s.member.state = .departing ∧ s.member.departureCount = 2 ∧ s.line.windowOpen = true
      ∧ s.claim = none ∧ s.notices.queue.length ≤ 8 := by
  decide

theorem witness_LineFaultClearsTheStation :
    Running cfg (lowLine (holding 16 (inState .member))) ∧ (lowLine (inState .member)).member.state.onLine = true
      ∧ (lowLine (inState .member)).line.faultMeasure = some 1536
      ∧ (lowLine (inState .member)).notices.queue.length < 32
      ∧ ({ (inState .member).line with faultDue := true } : LineInterface).faultDue = true := by
  decide

theorem witness_LineFaultClearsTheStation_line_clear :
    let s := { inState .lineFault with line := { (inState .lineFault).line with clearMeasure := some 0 } }
    Running cfg s ∧ s.member.state = .lineFault ∧ s.line.clearMeasure = some 0 ∧ s.notices.queue.length < 32 := by
  decide

/-- Both levels; a reception in progress; and the first and last CLK cycle of slot bits 0 to 15 of slot 3. -/
theorem witness_EdgesFollowTheLine :
    let s := fun (pos : Nat) =>
      let u := windowed (inState .member)
      { u with line := { u.line with cycleTimer := some ((32 + 256 * 3) * 128 + pos) } }
    (lowLine (inState .member)).line.lineLow = true ∧ (s 0).line.lineLow = false
      ∧ (inState .ready).member.state.onLine = false ∧ (s 0).config = some cfg ∧ (s 0).line.receiver = .idle
      ∧ ((s 0).advance 0).line.cycleTimer = some ((32 + 256 * (3 : Fin 16).val) * 128 + 0)
      ∧ ((s 2046).advance 1).line.cycleTimer = some ((32 + 256 * (3 : Fin 16).val) * 128 + 2047)
      ∧ (3 : Fin 16) ≠ ownSlot cfg (s 0).line.sequence
      ∧ ((receiving [false] (inState .member)).advance 1).line.receiver
        = .receiving 3 { untilNext := 127, levels := [false] } := by
  decide

/-- A start bit begins a reception, which a rise at the sample keeps and one before it drops (R147, log 12). -/
theorem test_start_bit :
    let s := { windowed (inState .member) with
      line := { (windowed (inState .member)).line with cycleTimer := some ((32 + 256 * 3 + 4) * 128), highTime := 4096 } }
    (after (.lineFallingEdge 0) s).line.receiver = .receiving 3 { untilNext := 64, levels := [] }
      ∧ (after (.lineRisingEdge 64) (after (.lineFallingEdge 0) s)).line.receiver
        = .receiving 3 { untilNext := 128, levels := [false] }
      ∧ ((after (.lineRisingEdge 63) (after (.lineFallingEdge 0) s)).advance 1).line.receiver = .idle := by
  decide

/-- The line rises as the fault is taken: LINE FAULT is entered with the line high, and the line-clear measure runs from
the entry (R154). -/
theorem test_line_fault_with_the_line_high :
    let s := { lowLine (inState .member) with
      line := { (lowLine (inState .member)).line with faultMeasure := some 8000 } }
    (after .lineFault (after (.lineRisingEdge 192) s)).line.clearMeasure = some 0
      ∧ (after .lineFault (after (.lineRisingEdge 191) s)).member.state = .member := by
  decide

/-- A recognised mark at which the founding wait has reached two own cycle lengths, and one a CLK cycle before: only the
first founds together with the mark (R109, R155). -/
theorem test_founding_with_a_mark :
    let s := fun (wait : Nat) =>
      { inState .listening with
        line := ({ (inState .listening).line with foundingWait := some wait } : LineInterface).takeMark cfg true false 1536 }
    (after .founding (s 2048000)).member.founding = true ∧ (after .founding (s 2047999)).member.founding = false := by
  decide

/-- A MEMBER that holds (8, 16) on channel 0 for a demand of 8 is a coherent state. -/
theorem coherent_holding : Coherent (windowed (holding 8 (inState .member))) where
  mapOrdered := by decide
  inRange := by intro c h; cases h; decide
  configured := by decide
  emptyOffLine := by decide
  marksRight := by intro c h; cases h; decide
  heldInStep := by decide
  pinsFollow := by decide
  portFollows := by decide
  quietInReset := by decide
  hintFollows := by decide
  countsInRange := by decide
  flags := by decide
  quiet := by intro c h; cases h; decide
  ownersLive := by intro c h; cases h; decide
  lease := ⟨by intro c h; cases h; decide, by decide⟩
  ownRow := by intro c h; cases h; decide

theorem witness_EveryStepKeepsCoherence :
    Coherent (windowed (holding 8 (inState .member)))
      ∧ ∃ t, step (windowed (holding 8 (inState .member))) = .next t :=
  ⟨coherent_holding, _, rfl⟩

theorem witness_EveryStepKeepsMapOrder :
    MapOrdered exampleMap
      ∧ ∃ t, step { inState .member with map := exampleMap, pending := [.resetRelease] } = .next t :=
  ⟨test_example_is_in_map_order, _, rfl⟩

theorem witness_ConfigurationIsFixedOnTheLine :
    (∃ t, exec .fullReset (inState .member) = .next t ∧ t.config ≠ (inState .member).config)
      ∧ (after (.configure exampleRecord []) (framed State.reset)).config ≠ (framed State.reset).config :=
  ⟨⟨_, rfl, by decide⟩, by decide⟩

/-- The own-slot-start of that state stages (8, 8) in place of (8, 16). -/
theorem witness_StagedSpansComeFromGrantsAndShortenings :
    Coherent (windowed (holding 8 (inState .member)))
      ∧ (after .ownSlotStart (windowed (holding 8 (inState .member)))).output.staged[0] = some ⟨8, 8⟩
      ∧ (windowed (holding 8 (inState .member))).output.staged[0] ≠ some ⟨8, 8⟩ :=
  ⟨coherent_holding, by decide, by decide⟩

/-- A held start other than the preferred one, a length that fits and one that does not; and a search whose first
candidate takes the whole demand, and one whose candidates all fit 0 slices. -/
theorem witness_PlacementTriesEveryStart :
    let r := { ChannelRecord.reset with state := .seeking, demand := 8 }
    (candidateStarts (some ⟨8, 16⟩) 4).head? = some 8 ∧ fits exampleMap 20 9 0 4 ⟨30, 6⟩ = true
      ∧ fits exampleMap 20 9 1 6 ⟨0, 4⟩ = false
      ∧ (candidateStarts r.held (preferredStart cfg.station 0))[0]? = some 8
      ∧ fits [] cfg.budget cfg.station 0 cfg.channels[0].weight ⟨8, r.demand⟩ = true
      ∧ (∀ l : Slice, fits [] 9 cfg.station 0 cfg.channels[0].weight ⟨l, r.demand⟩ ≠ true)
      ∧ (∀ l : Slice, longestFit [] 9 cfg.station 0 cfg.channels[0].weight r.demand l
          ≤ longestFit [] 9 cfg.station 0 cfg.channels[0].weight r.demand 8) := by
  decide

theorem witness_ReportReadsBackAsSent :
    let s := receiving (lineBits report) (inState .member)
    (report.items[1]? = some ⟨.claim, 0, ⟨4, 8⟩, 8⟩ ∧ 27 < (dataBits report).length)
      ∧ report.items.length ≤ 8
      ∧ (∀ it ∈ report.items, 1 ≤ it.span.length ∧ it.span.length ≤ 64 ∧ it.weight < 32)
      ∧ s.member.state.onLine = true
      ∧ s.line.receiver = .receiving 3 { untilNext := 128, levels := lineBits report }
      ∧ lineBits report <+: lineBits report ++ List.replicate (219 - (lineBits report).length) (!s.line.lineLow) :=
  ⟨⟨rfl, by decide⟩, by decide, by decide, rfl, rfl, List.prefix_append _ _⟩

end Sys2Proof.Tests
end

section
/-! READ SPANS (R24). The selection is the map turned so that the index comes first, cut to the count; the command's
taking has one response for each of its four cases, and changes nothing but the held response. -/

namespace Sys2Proof.Machine

/-! ### The selected entries -/

theorem selectEntries_eq_take_rotate {m : List Entry} {index : Nat} (h : index ≤ m.length) (count : Nat) :
    selectEntries m index count = (m.rotate index).take count := by
  rw [selectEntries, List.rotate_eq_drop_append_take h]

theorem length_selectEntries {m : List Entry} {index : Nat} (h : index ≤ m.length) (count : Nat) :
    (selectEntries m index count).length = min count m.length := by
  rw [selectEntries_eq_take_rotate h, List.length_take, List.length_rotate]

/-- The selection wraps from the last entry of the map to the first. -/
theorem getElem?_selectEntries {m : List Entry} {index count k : Nat} (h : index ≤ m.length)
    (hk : k < min count m.length) : (selectEntries m index count)[k]? = m[(index + k) % m.length]? := by
  obtain ⟨hcount, hlen⟩ := lt_min_iff.mp hk
  rw [selectEntries_eq_take_rotate h, List.getElem?_take_of_lt hcount, List.getElem?_rotate hlen, Nat.add_comm]

/-! ### The taking, case by case -/

theorem takeReadSpans_of_count_out_of_range {s : State} {index count : Byte}
    (h : count.toNat = 0 ∨ 8 < count.toNat) : takeReadSpans index count s = answer (plain .badArg) s :=
  if_pos h

section
variable {count : Byte} {s : State} (hcount : ¬(count.toNat = 0 ∨ 8 < count.toNat))
include hcount

theorem takeReadSpans_of_map_empty {index : Byte} (hmap : s.map = []) :
    takeReadSpans index count s = answer (okWith [0]) s := by
  rw [takeReadSpans, if_neg hcount, if_pos hmap, answer]

theorem takeReadSpans_of_index_out_of_range {index : Byte} (hmap : s.map ≠ [])
    (hindex : s.map.length ≤ index.toNat) : takeReadSpans index count s = answer (plain .badArg) s := by
  rw [takeReadSpans, if_neg hcount, if_neg hmap, if_pos hindex, answer]

theorem takeReadSpans_of_index_in_range {index : Byte} (hindex : index.toNat < s.map.length) :
    takeReadSpans index count s = answer (okWith (byte s.map.length ::
      (selectEntries s.map index.toNat count.toNat).flatMap entryBytes)) s := by
  have hmap : s.map ≠ [] := List.ne_nil_of_length_pos (Nat.zero_lt_of_lt hindex)
  rw [takeReadSpans, if_neg hcount, if_neg hmap, if_neg (Nat.not_le.mpr hindex), answer]

end

/-! ### The command -/

/-- A taking that only answers, once the frame has ended, leaves frameEnded (R176, R177, R178). -/
theorem endFrame_of_answers {s : State} {bits : List Bool} {taking : State → Taken} {r : Response}
    (h : FrameOf s bits)
    (hr : taking { s with port := s.port.endFrame bits } = answer r { s with port := s.port.endFrame bits }) :
    endFrame bits taking s = s.frameEnded bits r := by
  rw [← endFrame_answer h, endFrame_frameOf h, endFrame_frameOf h, hr]

theorem exec_readSpans_of_answers {s : State} {index count : Byte} {extra : List Bool} {r : Response}
    (h : FrameOf s (frameBits [0x43, index, count] extra)) (hr : ∀ p : HostPort,
      takeReadSpans index count { s with port := p } = answer r { s with port := p }) :
    exec (.readSpans index count extra) s = .next (s.frameEnded (frameBits [0x43, index, count] extra) r) :=
  congrArg Host.Outcome.next (endFrame_of_answers h (hr _))

/-- Settles O19: each clause is one case of the taking, and the entries returned are those of the turned map. -/
theorem readSpansSelectsInMapOrder : Obligations.ReadSpansSelectsInMapOrder := by
  intro s index count extra hframe answers n
  refine ⟨fun hcount => ?badCount, fun hpos hle => ?goodCount⟩
  case badCount =>
    exact exec_readSpans_of_answers hframe fun _ => takeReadSpans_of_count_out_of_range hcount
  case goodCount =>
    have hcount : ¬(count.toNat = 0 ∨ 8 < count.toNat) := by omega
    refine ⟨fun hempty => ?empty, fun hn hindex => ?badIndex, fun hindex => ?entries⟩
    case empty =>
      have hmap : s.map = [] := List.length_eq_zero_iff.mp hempty
      exact exec_readSpans_of_answers hframe fun _ => takeReadSpans_of_map_empty hcount hmap
    case badIndex =>
      have hmap : s.map ≠ [] := List.ne_nil_of_length_pos hn
      exact exec_readSpans_of_answers hframe fun _ => takeReadSpans_of_index_out_of_range hcount hmap hindex
    case entries =>
      have hle : index.toNat ≤ s.map.length := Nat.le_of_lt hindex
      refine ⟨selectEntries s.map index.toNat count.toNat, length_selectEntries hle _,
        fun k hk => getElem?_selectEntries hle hk, ?_⟩
      exact exec_readSpans_of_answers hframe fun _ => takeReadSpans_of_index_in_range hcount hindex

end Sys2Proof.Machine
end

section
/-! DEMAND (R157) and RENEW (R161). Each row of a table is one lemma about the command's taking; neither taking reads
the port, so its response and its next state stand as the frame ends. -/

namespace Sys2Proof.Machine

/-! ### A taking at the end of its frame -/

/-- A taking that neither reads nor writes the port leaves what it makes of the state, with the frame ended (R176, R177,
R178). -/
theorem endFrame_of_taking {s u : State} {bits : List Bool} {taking : State → Taken} {r : Response}
    (h : FrameOf s bits) (hport : u.port = s.port)
    (ht : ∀ p : HostPort, taking { s with port := p } = ({ u with port := p }, r)) :
    endFrame bits taking s = u.frameEnded bits r := by
  rw [endFrame_frameOf h, ht, State.frameEnded, hport]
  rfl

/-- What a notice does to the state depends on no port. -/
theorem issue_withPort (s : State) (k : NoticeKind) (p : HostPort) :
    ({ s with port := p } : State).issue k = { s.issue k with port := p } := by
  unfold State.issue
  split <;> rfl

/-! ### The checks of DEMAND (R157) -/

section
variable {cfg : Configuration} {channel length : Byte}

theorem demandAccepted_of_no_channel (h : 3 < channel.toNat) : demandAccepted cfg channel length = false := by
  simp [demandAccepted, h]

theorem ofNat_channel {c : ChannelNo} (hc : c.val = channel.toNat) : Fin.ofNat 4 channel.toNat = c := by
  rw [← hc]
  exact Fin.ofNat_val_eq_self c

/-- The checks on an existing channel: its enabled flag, the greatest length, and the floor below which only 0 is a
length. -/
theorem demandAccepted_iff {c : ChannelNo} (hc : c.val = channel.toNat) :
    demandAccepted cfg channel length = true ↔
      cfg.channels[c].enabled = true ∧ length.toNat ≤ 64
        ∧ (length.toNat = 0 ∨ cfg.channels[c].floor ≤ length.toNat) := by
  have hle : channel.toNat ≤ 3 := by omega
  simp only [demandAccepted, ofNat_channel hc, hle, decide_true, Bool.true_and, Bool.and_eq_true, Bool.or_eq_true,
    decide_eq_true_eq, and_assoc]

/-! ### The taking of DEMAND, case by case -/

theorem takeDemand_of_dormant {s : State} (h : s.member.state = .dormant) :
    takeDemand channel length s = (s, plain .badState) :=
  if_pos h

variable {s : State} (hstate : s.member.state ≠ .dormant) (hcfg : s.config = some cfg)
include hstate hcfg

theorem takeDemand_of_check_failed (h : demandAccepted cfg channel length = false) :
    takeDemand channel length s = (s, plain .badArg) := by
  simp [takeDemand, hstate, hcfg, h]

theorem takeDemand_of_checks_passed {c : ChannelNo} (hc : c.val = channel.toNat)
    (h : demandAccepted cfg channel length = true) :
    takeDemand channel length s = (s.writeDemand c length.toNat, .okEmpty) := by
  simp only [takeDemand, hstate, hcfg, h, ofNat_channel hc, if_false, if_true]

end

/-! ### The command DEMAND -/

theorem exec_demand_of_taking {s u : State} {channel length : Byte} {extra : List Bool} {r : Response}
    (h : FrameOf s (frameBits [0x31, channel, length] extra)) (hport : u.port = s.port)
    (ht : ∀ p : HostPort, takeDemand channel length { s with port := p } = ({ u with port := p }, r)) :
    exec (.demand channel length extra) s = .next (u.frameEnded (frameBits [0x31, channel, length] extra) r) :=
  congrArg Host.Outcome.next (endFrame_of_taking h hport ht)

/-- Settles O14: DORMANT is refused first; then each check that fails makes demandAccepted false, and the demand is
written when it is true. -/
theorem demandIsCheckedInOrder : Obligations.DemandIsCheckedInOrder := by
  intro s channel length extra hframe answers
  refine ⟨fun hdormant => ?dormant, fun cfg hstate hcfg => ?configured⟩
  case dormant =>
    exact exec_demand_of_taking hframe rfl fun _ => takeDemand_of_dormant hdormant
  case configured =>
    have refused (h : demandAccepted cfg channel length = false) : answers s .badArg :=
      exec_demand_of_taking hframe rfl fun _ => takeDemand_of_check_failed hstate hcfg h
    refine ⟨fun hchannel => refused (demandAccepted_of_no_channel hchannel), fun c hc => ?channel⟩
    have hiff := demandAccepted_iff (cfg := cfg) (length := length) hc
    refine ⟨fun hdisabled => ?disabled, fun hlong => ?tooLong, fun hpos hfloor => ?belowFloor,
      fun henabled hlen hfloor => ?accepted⟩
    case disabled =>
      refine refused (Bool.eq_false_iff.mpr fun h => ?_)
      exact Bool.false_ne_true (hdisabled.symm.trans (hiff.mp h).1)
    case tooLong =>
      refine refused (Bool.eq_false_iff.mpr fun h => ?_)
      obtain ⟨-, hle, -⟩ := hiff.mp h
      exact Nat.not_le.mpr hlong hle
    case belowFloor =>
      refine refused (Bool.eq_false_iff.mpr fun h => ?_)
      obtain ⟨-, -, hzero | hle⟩ := hiff.mp h
      · exact hpos hzero
      · exact Nat.not_le.mpr hfloor hle
    case accepted =>
      have hok := hiff.mpr ⟨henabled, hlen, hfloor⟩
      exact exec_demand_of_taking hframe (writeDemand_port s c _) fun p =>
        takeDemand_of_checks_passed (s := { s with port := p }) hstate hcfg hc hok

/-! ### The taking of RENEW, row by row (R161) -/

theorem takeRenew_of_no_lease_to_renew {s : State} (h : s.member.state = .dormant ∨ s.member.state = .ready) :
    takeRenew s = (s, plain .badState) :=
  if_pos h

theorem takeRenew_of_configured {s : State} {cfg : Configuration} (hcfg : s.config = some cfg)
    (hdormant : s.member.state ≠ .dormant) (hready : s.member.state ≠ .ready) :
    takeRenew s = renewLease cfg.lease s := by
  simp [takeRenew, hcfg, hdormant, hready]

theorem renewLease_of_off {s : State} {lease : Nat} (h : lease = 0) : renewLease lease s = (s, .okEmpty) :=
  if_pos h

theorem renewLease_of_early {s : State} {lease : Nat} (hon : lease ≠ 0) (h : s.leaseCount < lease / 4) :
    renewLease lease s = (s.issue .earlyRenew, plain .early) := by
  rw [renewLease, if_neg hon, if_pos h]

theorem renewLease_of_in_window {s : State} {lease : Nat} (hon : lease ≠ 0) (h : lease / 4 ≤ s.leaseCount) :
    renewLease lease s = ({ s with leaseCount := 0 }, .okEmpty) := by
  rw [renewLease, if_neg hon, if_neg (Nat.not_lt.mpr h)]

/-! ### The command RENEW -/

theorem exec_renew_of_taking {s u : State} {extra : List Bool} {r : Response}
    (h : FrameOf s (frameBits [0x32] extra)) (hport : u.port = s.port)
    (ht : ∀ p : HostPort, takeRenew { s with port := p } = ({ u with port := p }, r)) :
    exec (.renew extra) s = .next (u.frameEnded (frameBits [0x32] extra) r) :=
  congrArg Host.Outcome.next (endFrame_of_taking h hport ht)

/-- Settles O16: the first row is decided by the station state, the others by the lease and the lease count. -/
theorem renewFollowsItsTable : Obligations.RenewFollowsItsTable := by
  intro s extra hframe answers
  refine ⟨fun hstate => ?badState, fun cfg hcfg hdormant hready => ?configured⟩
  case badState =>
    exact exec_renew_of_taking hframe rfl fun _ => takeRenew_of_no_lease_to_renew hstate
  case configured =>
    have renewed {u : State} {code : ResponseCode} (hport : u.port = s.port)
        (h : ∀ p : HostPort, renewLease cfg.lease { s with port := p } = ({ u with port := p }, plain code)) :
        answers u code :=
      exec_renew_of_taking hframe hport fun p =>
        (takeRenew_of_configured (s := { s with port := p }) hcfg hdormant hready).trans (h p)
    refine ⟨fun hoff => ?off, fun hon hearly => ?early, fun hon hwindow => ?inWindow⟩
    case off =>
      exact renewed rfl fun _ => renewLease_of_off hoff
    case early =>
      refine renewed (issue_port s _) fun p => ?_
      rw [renewLease_of_early (s := { s with port := p }) hon hearly, issue_withPort]
    case inWindow =>
      exact renewed rfl fun _ => renewLease_of_in_window hon hwindow

end Sys2Proof.Machine
end

section
/-! TAKE NOTICES (R171). The queue is cut at the count: what stands before the cut is returned, what stands behind it
waits on, and HINT is that of what waits on. -/

namespace Sys2Proof.Machine

/-! ### The taking, case by case -/

theorem takeTakeNotices_of_count_out_of_range {s : State} {count : Byte} (h : count.toNat = 0 ∨ 8 < count.toNat) :
    takeTakeNotices count s = (s, plain .badArg) :=
  if_pos h

/-- The whole next state of an accepted count: the returned notices leave the queue, nothing counts as lost, and HINT is
brought up to date against the rest (R169, R171). -/
theorem takeTakeNotices_of_count_in_range {s : State} {count : Byte} (h : ¬(count.toNat = 0 ∨ 8 < count.toNat)) :
    takeTakeNotices count s =
      (let out := s.notices.queue.take count.toNat
       let rest := s.notices.queue.drop count.toNat
       ({ s with notices := { queue := rest, lost := 0, hintLow := hintLevel s.config rest } },
        okWith (byte s.notices.lost :: byte out.length :: out.flatMap noticeBytes))) := by
  rw [takeTakeNotices, if_neg h]
  rfl

/-! ### The command TAKE NOTICES -/

theorem exec_takeNotices_of_taking {s u : State} {count : Byte} {extra : List Bool} {r : Response}
    (h : FrameOf s (frameBits [0x44, count] extra)) (hport : u.port = s.port)
    (ht : ∀ p : HostPort, takeTakeNotices count { s with port := p } = ({ u with port := p }, r)) :
    exec (.takeNotices count extra) s = .next (u.frameEnded (frameBits [0x44, count] extra) r) :=
  congrArg Host.Outcome.next (endFrame_of_taking h hport ht)

/-- Settles O20: a count out of range only answers; a count in range cuts the queue into the notices returned and those
that wait on. -/
theorem takeNoticesFromTheHead : Obligations.TakeNoticesFromTheHead := by
  intro s count extra hframe
  refine ⟨fun hcount => ?badCount, fun hpos hle => ?goodCount⟩
  case badCount =>
    exact exec_takeNotices_of_taking hframe rfl fun _ => takeTakeNotices_of_count_out_of_range hcount
  case goodCount =>
    have hcount : ¬(count.toNat = 0 ∨ 8 < count.toNat) := by omega
    refine ⟨s.notices.queue.take count.toNat, s.notices.queue.drop count.toNat,
      (List.take_append_drop _ _).symm, List.length_take, ?_⟩
    exact exec_takeNotices_of_taking hframe rfl fun _ => takeTakeNotices_of_count_in_range hcount

end Sys2Proof.Machine
end

section
/-! FETCH (R181), and what every frame shows (R177). A command that ends a frame is the end of that
frame with the command's taking, and no taking touches what HSDO has shown. -/

namespace Sys2Proof.Machine

/-! ### What HSDO shows in a frame -/

/-- The bits shown at a frame's end are those of the response held before, whatever the taking does to the rest. -/
theorem endFrame_shown {s : State} {bits : List Bool} {taking : State → Taken} (h : FrameOf s bits)
    (ht : ∀ u, (taking u).1.port.shown = u.port.shown) :
    (endFrame bits taking s).port.shown = shiftOut s.port.held bits.length := by
  rw [endFrame_frameOf h]
  exact ht _

/-! ### The takings leave what was shown -/

section
variable (u : State)

theorem takeConfigure_shown (record : Vector Byte 15) : (takeConfigure record u).1.port.shown = u.port.shown := by
  unfold takeConfigure
  split
  · split
    · rfl
    · split <;> rfl
  · rfl

theorem takeJoin_shown : (takeJoin u).1.port.shown = u.port.shown := by
  unfold takeJoin
  split <;> rfl

theorem departAtOnce_port : (departAtOnce u).port = u.port := by
  unfold departAtOnce
  split
  · exact enterReady_port u _
  · rfl

theorem takeDepart_shown : (takeDepart u).1.port.shown = u.port.shown := by
  unfold takeDepart
  split
  case h_5 | h_6 | h_7 => exact congrArg HostPort.shown (departAtOnce_port u)
  all_goals rfl

theorem takeDemand_shown (channel length : Byte) : (takeDemand channel length u).1.port.shown = u.port.shown := by
  unfold takeDemand
  split
  · rfl
  · split
    · rfl
    · split <;> rfl

theorem renewLease_shown (lease : Nat) : (renewLease lease u).1.port.shown = u.port.shown := by
  unfold renewLease
  split
  · rfl
  · split
    · exact congrArg HostPort.shown (issue_port u _)
    · rfl

theorem takeRenew_shown : (takeRenew u).1.port.shown = u.port.shown := by
  unfold takeRenew
  split
  · rfl
  · split
    · rfl
    · exact renewLease_shown u _

theorem takeReadRoster_shown : (takeReadRoster u).1.port.shown = u.port.shown := by
  unfold takeReadRoster
  split
  · rfl
  · split <;> rfl

theorem takeReadSpans_shown (index count : Byte) : (takeReadSpans index count u).1.port.shown = u.port.shown := by
  unfold takeReadSpans
  split
  · rfl
  · split
    · rfl
    · split <;> rfl

theorem takeTakeNotices_shown (count : Byte) : (takeTakeNotices count u).1.port.shown = u.port.shown := by
  unfold takeTakeNotices
  split <;> rfl

end

/-! ### A command that ends a frame -/

/-- Each well-formed command with a frame is that frame's end, with a taking that leaves what was shown (R177, R178). -/
theorem exec_eq_endFrame : ∀ {i : Instr} {bits : List Bool}, i.wellFormed = true → i.frameBits = some bits →
    ∃ taking : State → Taken, (∀ u, (taking u).1.port.shown = u.port.shown)
      ∧ ∀ s, exec i s = .next (endFrame bits taking s)
  | .shortFrame _, _, hshort, rfl => ⟨_, fun _ => rfl, fun _ => if_pos hshort⟩
  | .unknown _ _, _, hunknown, rfl => ⟨_, fun _ => rfl, fun _ => if_pos hunknown⟩
  | .fetch _, _, _, rfl => ⟨answer .okEmpty, fun _ => rfl, fun _ => rfl⟩
  | .configure record _, _, _, rfl => ⟨_, (takeConfigure_shown · record), fun _ => rfl⟩
  | .join _, _, _, rfl => ⟨_, takeJoin_shown, fun _ => rfl⟩
  | .depart _, _, _, rfl => ⟨_, takeDepart_shown, fun _ => rfl⟩
  | .restart _, _, _, rfl => ⟨takeRestart, fun _ => rfl, fun _ => rfl⟩
  | .demand channel length _, _, _, rfl => ⟨_, (takeDemand_shown · channel length), fun _ => rfl⟩
  | .renew _, _, _, rfl => ⟨_, takeRenew_shown, fun _ => rfl⟩
  | .status _, _, _, rfl => ⟨takeStatus, fun _ => rfl, fun _ => rfl⟩
  | .readRoster _, _, _, rfl => ⟨_, takeReadRoster_shown, fun _ => rfl⟩
  | .readSpans index count _, _, _, rfl => ⟨_, (takeReadSpans_shown · index count), fun _ => rfl⟩
  | .takeNotices count _, _, _, rfl => ⟨_, (takeTakeNotices_shown · count), fun _ => rfl⟩

/-! ### The held response as HCS falls -/

theorem beforeFall_held (s : State) (after : Option Nat) : (s.beforeFall after).port.held = s.port.held := by
  unfold State.beforeFall
  split
  · exact advance_port_held s _
  · split
    · exact advance_port_held s _
    · rfl

theorem fallHcs_held (s : State) (clock : List HsckEdge) : (fallHcs clock s).port.held = s.port.held := by
  unfold fallHcs
  split
  · rfl
  · refine (feed_held _ clock _).trans ?_
    split
    · rfl
    · split <;> rfl

/-- HCS falling keeps the held response, whether or not a frame begins (R175, R176). -/
theorem exec_frameBegin_held {s t : State} {after : Option Nat} {clock : List HsckEdge}
    (h : exec (.frameBegin after clock) s = .next t) : t.port.held = s.port.held := by
  obtain rfl := Host.Outcome.next.inj h
  exact (fallHcs_held _ clock).trans (beforeFall_held s after)

/-! ### FETCH -/

theorem exec_fetch_of_frameOf {s : State} {extra : List Bool} (h : FrameOf s (frameBits [0x00] extra)) :
    exec (.fetch extra) s = .next (s.frameEnded (frameBits [0x00] extra) { code := .ok, data := [] }) :=
  congrArg Host.Outcome.next (endFrame_answer h .okEmpty)

theorem length_byteBits (b : Byte) : (byteBits b).length = 8 := rfl

/-- OK with no data, read by a frame of one byte and more, is 0x80 and then zeros (R177, R179). -/
theorem shiftOut_okEmpty (b : Byte) (extra : List Bool) :
    shiftOut .okEmpty (frameBits [b] extra).length = byteBits 0x80 ++ List.replicate extra.length false := by
  have hlen : (frameBits [b] extra).length = (byteBits 0x80).length + extra.length := by
    simp [frameBits, length_byteBits]
  have hbits : Response.okEmpty.bits = byteBits 0x80 := rfl
  rw [shiftOut, hbits, hlen, List.take_length_add_append, List.take_replicate, Nat.min_eq_left (Nat.le_add_left _ _)]

/-- Settles O8: FETCH only answers; HCS falling keeps that answer, so the next FETCH shows it; and every other command's
frame shows the response held before it. -/
theorem fetchChangesNothing : Obligations.FetchChangesNothing := by
  refine ⟨rfl, fun s extra hframe => ⟨exec_fetch_of_frameOf hframe, ?secondFetch⟩, ?anyCommand⟩
  case secondFetch =>
    intro clock again t u v ht hu hagain hv
    obtain rfl := Host.Outcome.next.inj ((exec_fetch_of_frameOf hframe).symm.trans ht)
    obtain rfl := Host.Outcome.next.inj ((exec_fetch_of_frameOf hagain).symm.trans hv)
    have hheld : u.port.held = .okEmpty := exec_frameBegin_held hu
    calc (u.frameEnded (frameBits [0x00] again) { code := .ok, data := [] }).port.shown
      _ = shiftOut u.port.held (frameBits [0x00] again).length := rfl
      _ = shiftOut .okEmpty (frameBits [0x00] again).length := by rw [hheld]
      _ = byteBits 0x80 ++ List.replicate again.length false := shiftOut_okEmpty 0x00 again
  case anyCommand =>
    intro i s bits hframe hwf hbits
    obtain ⟨taking, hshown, hexec⟩ := exec_eq_endFrame hwf hbits
    exact ⟨_, hexec s, endFrame_shown hframe hshown⟩

end Sys2Proof.Machine
end

section
/-! CONFIGURE (R184). Its checks in their order are the cases of its taking, and the check that holds in READY only is
read as its two halves, the demands and the lease count. -/

namespace Sys2Proof.Machine

/-! ### The checks that hold in READY -/

theorem mem_channelOrder (c : ChannelNo) : c ∈ channelOrder := by
  revert c
  decide

/-- The checks of READY pass exactly where no demand is refused by its channel and the lease count is within the
lease. -/
theorem consistent_iff {cfg : Configuration} {s : State} :
    consistent cfg s = true ↔
      (∀ c : ChannelNo, 0 < s.demand[c] → cfg.channels[c].enabled = true ∧ cfg.channels[c].floor ≤ s.demand[c])
        ∧ (cfg.lease = 0 ∨ s.leaseCount ≤ cfg.lease) := by
  simp only [consistent, Bool.and_eq_true, List.all_eq_true, Bool.or_eq_true, decide_eq_true_eq, mem_channelOrder,
    forall_const, Nat.pos_iff_ne_zero, ne_eq, or_iff_not_imp_left]

/-! ### The taking of CONFIGURE, case by case -/

section
variable {s : State} {record : Vector Byte 15}

theorem takeConfigure_of_other_state (hdormant : s.member.state ≠ .dormant) (hready : s.member.state ≠ .ready) :
    takeConfigure record s = (s, plain .badState) :=
  if_neg (not_or.mpr ⟨hdormant, hready⟩)

theorem takeConfigure_of_bad_record (hstate : s.member.state = .dormant ∨ s.member.state = .ready)
    (hrec : parseRecord record = none) : takeConfigure record s = (s, plain .badArg) := by
  simp only [takeConfigure, if_pos hstate, hrec]

variable {cfg : Configuration} (hrec : parseRecord record = some cfg)
include hrec

theorem takeConfigure_of_inconsistent (hready : s.member.state = .ready) (h : consistent cfg s = false) :
    takeConfigure record s = (s, plain .badArg) := by
  simp only [takeConfigure, if_pos (Or.inr hready), hrec, if_pos (And.intro hready h)]

theorem takeConfigure_of_accepted
    (h : s.member.state = .dormant ∨ (s.member.state = .ready ∧ consistent cfg s = true)) :
    takeConfigure record s = (acceptConfiguration cfg s, .okEmpty) := by
  have hstate : s.member.state = .dormant ∨ s.member.state = .ready := h.imp_right And.left
  have hpass : ¬(s.member.state = .ready ∧ consistent cfg s = false) := by
    rintro ⟨hready, hfails⟩
    rcases h with hdormant | ⟨-, hok⟩
    · exact absurd (hready.symm.trans hdormant) (by decide)
    · exact Bool.false_ne_true (hfails.symm.trans hok)
  simp only [takeConfigure, if_pos hstate, hrec, if_neg hpass]

end

/-! ### The command CONFIGURE -/

theorem exec_configure_of_taking {s u : State} {record : Vector Byte 15} {extra : List Bool} {r : Response}
    (h : FrameOf s (frameBits (0x11 :: record.toList) extra)) (hport : u.port = s.port)
    (ht : ∀ p : HostPort, takeConfigure record { s with port := p } = ({ u with port := p }, r)) :
    exec (.configure record extra) s = .next (u.frameEnded (frameBits (0x11 :: record.toList) extra) r) :=
  congrArg Host.Outcome.next (endFrame_of_taking h hport ht)

/-- Settles O9: each clause is one case of the taking, and the demands and the lease count of READY are the two halves of
consistent. -/
theorem configureIsCheckedInOrder : Obligations.ConfigureIsCheckedInOrder := by
  intro s record extra hframe answers
  refine ⟨fun hdormant hready => ?badState, fun hstate hrec => ?badRecord, fun cfg hready hrec hfails => ?inconsistent,
    fun cfg hrec hpass => ?accepted⟩
  case badState =>
    exact exec_configure_of_taking hframe rfl fun _ => takeConfigure_of_other_state hdormant hready
  case badRecord =>
    exact exec_configure_of_taking hframe rfl fun _ => takeConfigure_of_bad_record hstate hrec
  case inconsistent =>
    have hbad : consistent cfg s = false := by
      refine Bool.eq_false_iff.mpr fun hok => ?_
      obtain ⟨hdemands, hlease⟩ := consistent_iff.mp hok
      rcases hfails with ⟨c, hpos, hrefused⟩ | ⟨hon, hpast⟩
      · obtain ⟨henabled, hfloor⟩ := hdemands c hpos
        rcases hrefused with hdisabled | hbelow
        · exact Bool.false_ne_true (hdisabled.symm.trans henabled)
        · exact Nat.not_le.mpr hbelow hfloor
      · exact hlease.elim hon (Nat.not_le.mpr hpast)
    exact exec_configure_of_taking hframe rfl fun p =>
      takeConfigure_of_inconsistent (s := { s with port := p }) hrec hready hbad
  case accepted =>
    have hok : s.member.state = .dormant ∨ (s.member.state = .ready ∧ consistent cfg s = true) :=
      hpass.imp_right fun ⟨hready, hchecks⟩ => ⟨hready, consistent_iff.mpr hchecks⟩
    exact exec_configure_of_taking (u := acceptConfiguration cfg s) hframe rfl fun p =>
      takeConfigure_of_accepted (s := { s with port := p }) hrec hok

end Sys2Proof.Machine
end
